-- ==== Sys2Proof/Word.lean ====
section
/-! DEFINITION. The word and the byte of IS. -/

namespace Sys2Proof

/-- A register, IP, SP, a memory cell and an instruction word hold 16 bits (`00_scope.md` R5, `XLEN`; log entry 17). -/
abbrev Word := BitVec 16

/-- Half of a cell (`20_memory.md` R55). -/
abbrev Byte := BitVec 8

end Sys2Proof
end

