-- ==== Sys2Proof/Syntax.lean ====
section
/-! DEFINITION. The instructions of IS as syntax: registers, address modes, conditions, and one constructor of `Instr`
for each row of `opcode_table.json`. -/

namespace Sys2Proof

/-- The eight accessible registers (`10_state.md` R20). -/
inductive Reg where
  | r0 | r1 | r2 | r3 | r4 | r5 | r6 | r7
  deriving DecidableEq, Repr

/-- The sixteen address modes, by the source's letters (`41_load_store.md` R131); `in_` is mode `in`. -/
inductive Mode where
  | i | id | in_ | rd | rn | xd | xn | xo | xf | sd | sn | so | sxd | sxn | sxo | sxf
  deriving DecidableEq, Repr

/-- The twenty conditions, by the source's names, in the order of their numbers 1 to 20 (`45_compare_flags.md` R241). -/
inductive Cond where
  | equal
  | notEqual
  | lessThan
  | greaterThan
  | lessEqual
  | greaterEqual
  | aboveThan
  | belowThan
  | aboveEqual
  | belowEqual
  | zero
  | notZero
  | carry
  | notCarry
  | overflow
  | notOverflow
  | sign
  | notSign
  | parity
  | notParity
  deriving DecidableEq, Repr

/-- The instructions, in the order of `opcode_table.json`. `rrr`, `sss`, `ttt` are the primary, secondary and tertiary
registers (`30_encoding.md` R82 to R88). The low bits of an R0 word and the second word of RET carry no operand
(R102; log entry 22). The last three are the pseudo-instructions (R106; log entry 12). -/
inductive Instr where
  | hlt
  | nop
  | ldw (mode : Mode) (rrr : Reg) (operand : Word)
  | stw (mode : Mode) (rrr : Reg) (operand : Word)
  | ldl (mode : Mode) (rrr : Reg) (operand : Word)
  | stl (mode : Mode) (rrr : Reg) (operand : Word)
  | ldh (mode : Mode) (rrr : Reg) (operand : Word)
  | sth (mode : Mode) (rrr : Reg) (operand : Word)
  | xch (rrr sss : Reg)
  | xeq (rrr sss : Reg)
  | xne (rrr sss : Reg)
  | xlt (rrr sss : Reg)
  | xgt (rrr sss : Reg)
  | xle (rrr sss : Reg)
  | xge (rrr sss : Reg)
  | xat (rrr sss : Reg)
  | xbt (rrr sss : Reg)
  | xae (rrr sss : Reg)
  | xbe (rrr sss : Reg)
  | xyz (rrr sss : Reg)
  | xnz (rrr sss : Reg)
  | xyc (rrr sss : Reg)
  | xnc (rrr sss : Reg)
  | xyo (rrr sss : Reg)
  | xno (rrr sss : Reg)
  | xys (rrr sss : Reg)
  | xns (rrr sss : Reg)
  | xyp (rrr sss : Reg)
  | xnp (rrr sss : Reg)
  | add (rrr sss ttt : Reg)
  | adc (rrr sss ttt : Reg)
  | sub (rrr sss ttt : Reg)
  | sbb (rrr sss ttt : Reg)
  | and (rrr sss ttt : Reg)
  | orr (rrr sss ttt : Reg)
  | xor (rrr sss ttt : Reg)
  | mul (rrr sss ttt : Reg)
  | div (rrr sss ttt : Reg)
  | not (rrr sss : Reg)
  | neg (rrr sss : Reg)
  | adi (rrr sss : Reg) (imm : Word)
  | sbi (rrr sss : Reg) (imm : Word)
  | aci (rrr sss : Reg) (imm : Word)
  | sib (rrr sss : Reg) (imm : Word)
  | ani (rrr sss : Reg) (imm : Word)
  | ori (rrr sss : Reg) (imm : Word)
  | xri (rrr sss : Reg) (imm : Word)
  | asl (rrr sss ttt : Reg)
  | asr (rrr sss ttt : Reg)
  | lsr (rrr sss ttt : Reg)
  | rtl (rrr sss ttt : Reg)
  | rtr (rrr sss ttt : Reg)
  | rlc (rrr sss ttt : Reg)
  | rrc (rrr sss ttt : Reg)
  | cmp (rrr sss : Reg)
  | tst (rrr sss : Reg)
  | flg (rrr : Reg)
  | flr (rrr : Reg)
  | jmp (rrr sss : Reg) (target : Word)
  | jeq (rrr sss : Reg) (target : Word)
  | jne (rrr sss : Reg) (target : Word)
  | jlt (rrr sss : Reg) (target : Word)
  | jgt (rrr sss : Reg) (target : Word)
  | jle (rrr sss : Reg) (target : Word)
  | jge (rrr sss : Reg) (target : Word)
  | jat (rrr sss : Reg) (target : Word)
  | jbt (rrr sss : Reg) (target : Word)
  | jae (rrr sss : Reg) (target : Word)
  | jbe (rrr sss : Reg) (target : Word)
  | jyz (rrr sss : Reg) (target : Word)
  | jnz (rrr sss : Reg) (target : Word)
  | jyc (rrr sss : Reg) (target : Word)
  | jnc (rrr sss : Reg) (target : Word)
  | jyo (rrr sss : Reg) (target : Word)
  | jno (rrr sss : Reg) (target : Word)
  | jys (rrr sss : Reg) (target : Word)
  | jns (rrr sss : Reg) (target : Word)
  | jyp (rrr sss : Reg) (target : Word)
  | jnp (rrr sss : Reg) (target : Word)
  | lop (rrr sss : Reg) (target : Word)
  | psw (rrr : Reg)
  | psl (rrr : Reg)
  | psh (rrr : Reg)
  | ppw (rrr : Reg)
  | ppl (rrr : Reg)
  | pph (rrr : Reg)
  | cal (rrr sss : Reg) (target : Word)
  | ret (rrr sss : Reg)
  | mov (rrr sss : Reg)
  | mvi (rrr : Reg) (imm : Word)
  | lsl (rrr sss ttt : Reg)
  deriving DecidableEq, Repr

end Sys2Proof
end

