-- ==== Sys2Proof/WellFormed.lean ====
section
/-! DEFINITION. Which instructions have operand combinations that the spec gives a meaning: check 5 of
`60_exceptions.md` R303, which depends on the instruction words only. -/

namespace Sys2Proof

/-- In the register modes the operand word holds a register number: bits 15:3 must be zero (`41_load_store.md` R132). -/
def Mode.operandFits (m : Mode) (operand : Word) : Bool :=
  match m with
  | .rd | .rn => operand.extractLsb' 3 13 == 0
  | .i | .id | .in_ | .xd | .xn | .xo | .xf | .sd | .sn | .so | .sxd | .sxn | .sxo | .sxf => true

/-- A store needs a place to store to: mode `i` gives a value (`41_load_store.md` R134). -/
def Mode.storable (m : Mode) : Bool := m != .i

/-- r0 has no register before it (`30_encoding.md` R103). -/
def Reg.hasBefore (r : Reg) : Bool := r != .r0

/-- No combination of operands that `30_encoding.md` R102 and R103 refuse. -/
def Instr.wellFormed (i : Instr) : Bool :=
  match i with
  | .ldw m _ w | .ldl m _ w | .ldh m _ w => m.operandFits w
  | .stw m _ w | .stl m _ w | .sth m _ w => m.storable && m.operandFits w
  | .mul r _ _ => r.hasBefore
  | .div r s _ => r.hasBefore && s.hasBefore
  | .hlt | .nop => true
  | .xch _ _ | .xeq _ _ | .xne _ _ | .xlt _ _ | .xgt _ _ | .xle _ _ | .xge _ _ | .xat _ _ | .xbt _ _ | .xae _ _
  | .xbe _ _ | .xyz _ _ | .xnz _ _ | .xyc _ _ | .xnc _ _ | .xyo _ _ | .xno _ _ | .xys _ _ | .xns _ _ | .xyp _ _
  | .xnp _ _ => true
  | .add _ _ _ | .adc _ _ _ | .sub _ _ _ | .sbb _ _ _ | .and _ _ _ | .orr _ _ _ | .xor _ _ _ => true
  | .not _ _ | .neg _ _ | .cmp _ _ | .tst _ _ => true
  | .adi _ _ _ | .sbi _ _ _ | .aci _ _ _ | .sib _ _ _ | .ani _ _ _ | .ori _ _ _ | .xri _ _ _ => true
  | .asl _ _ _ | .asr _ _ _ | .lsr _ _ _ | .rtl _ _ _ | .rtr _ _ _ | .rlc _ _ _ | .rrc _ _ _ => true
  | .flg _ | .flr _ | .psw _ | .psl _ | .psh _ | .ppw _ | .ppl _ | .pph _ => true
  | .jmp _ _ _ | .jeq _ _ _ | .jne _ _ _ | .jlt _ _ _ | .jgt _ _ _ | .jle _ _ _ | .jge _ _ _ | .jat _ _ _
  | .jbt _ _ _ | .jae _ _ _ | .jbe _ _ _ | .jyz _ _ _ | .jnz _ _ _ | .jyc _ _ _ | .jnc _ _ _ | .jyo _ _ _
  | .jno _ _ _ | .jys _ _ _ | .jns _ _ _ | .jyp _ _ _ | .jnp _ _ _ | .lop _ _ _ | .cal _ _ _ | .ret _ _ => true
  | .mov _ _ | .mvi _ _ | .lsl _ _ _ => true

end Sys2Proof
end

