-- ==== Sys2Proof/Decode.lean ====
section
/-! DEFINITION. The encoding of IS (`30_encoding.md`): the decoder, total on every pair of words, and after it the
encoder, both written from the opcode maps R93 to R99. -/

namespace Sys2Proof

/-! ### Register and mode fields -/

/-- The 3-bit field that names a register (`30_encoding.md` R90). -/
def Reg.code (r : Reg) : BitVec 3 :=
  match r with
  | .r0 => 0
  | .r1 => 1
  | .r2 => 2
  | .r3 => 3
  | .r4 => 4
  | .r5 => 5
  | .r6 => 6
  | .r7 => 7

/-- The register a 3-bit field names (`30_encoding.md` R90). -/
def Reg.ofCode (c : BitVec 3) : Reg :=
  match c.toNat with
  | 0 => .r0
  | 1 => .r1
  | 2 => .r2
  | 3 => .r3
  | 4 => .r4
  | 5 => .r5
  | 6 => .r6
  | _ => .r7

/-- The 4-bit code of an address mode (`41_load_store.md` R131, column Binary). -/
def Mode.code (m : Mode) : BitVec 4 :=
  match m with
  | .i => 0b0000
  | .id => 0b0001
  | .in_ => 0b0010
  | .rd => 0b0011
  | .rn => 0b0100
  | .xd => 0b0101
  | .xn => 0b0110
  | .xo => 0b0111
  | .xf => 0b1000
  | .sd => 0b1001
  | .sn => 0b1010
  | .so => 0b1011
  | .sxd => 0b1100
  | .sxn => 0b1101
  | .sxo => 0b1110
  | .sxf => 0b1111

/-- The address mode of a 4-bit code; all sixteen are assigned (`30_encoding.md` R92). -/
def Mode.ofCode (c : BitVec 4) : Mode :=
  match c.toNat with
  | 0 => .i
  | 1 => .id
  | 2 => .in_
  | 3 => .rd
  | 4 => .rn
  | 5 => .xd
  | 6 => .xn
  | 7 => .xo
  | 8 => .xf
  | 9 => .sd
  | 10 => .sn
  | 11 => .so
  | 12 => .sxd
  | 13 => .sxn
  | 14 => .sxo
  | _ => .sxf

/-! ### The fields of the first word -/

/-- Bits 15:13, the type (`30_encoding.md` R80). -/
def typeField (w0 : Word) : BitVec 3 := w0.extractLsb' 13 3

/-- Bits 12:3, the opcode of the R0 and R1 types (`30_encoding.md` R82, R83). -/
def opcode10 (w0 : Word) : BitVec 10 := w0.extractLsb' 3 10

/-- Bits 12:6, the opcode of the R2, J and R2I types (`30_encoding.md` R84, R87, R88). -/
def opcode7 (w0 : Word) : BitVec 7 := w0.extractLsb' 6 7

/-- Bits 12:9, the opcode of the R3 type (`30_encoding.md` R85). -/
def opcode4 (w0 : Word) : BitVec 4 := w0.extractLsb' 9 4

/-- Bits 12:8, the opcode of the M type (`30_encoding.md` R86). -/
def opcode5 (w0 : Word) : BitVec 5 := w0.extractLsb' 8 5

/-- Bit 7, `b` of the M type: 0 for the load, 1 for the store of a width (`30_encoding.md` R86, R89). -/
def storeBit (w0 : Word) : BitVec 1 := w0.extractLsb' 7 1

/-- Bits 6:3, the address mode of the M type (`30_encoding.md` R92). -/
def modeField (w0 : Word) : Mode := Mode.ofCode (w0.extractLsb' 3 4)

/-- Bits 2:0, the primary register. -/
def rrrField (w0 : Word) : Reg := Reg.ofCode (w0.extractLsb' 0 3)

/-- Bits 5:3, the secondary register. -/
def sssField (w0 : Word) : Reg := Reg.ofCode (w0.extractLsb' 3 3)

/-- Bits 8:6, the tertiary register. -/
def tttField (w0 : Word) : Reg := Reg.ofCode (w0.extractLsb' 6 3)

/-- How many words an instruction has, told from the type alone; none for type 111 (`30_encoding.md` R80, R100). -/
def lengthOf (w0 : Word) : Option Nat :=
  match (typeField w0).toNat with
  | 0 | 1 | 2 | 3 => some 1
  | 4 | 5 | 6 => some 2
  | _ => none

/-! ### The decoder -/

/-- Why a pair of words is no instruction. -/
inductive Reject where
  /-- Type bits 111 (`30_encoding.md` R100). -/
  | undefinedType
  /-- An opcode with no row in `30_encoding.md` R93 to R99 (R101). -/
  | unassignedOpcode
  deriving DecidableEq, Repr

/-- R0-Type opcodes (`30_encoding.md` R93). -/
def decodeR0 (op : BitVec 10) : Option Instr :=
  match op.toNat with
  | 0 => some .hlt
  | 1 => some .nop
  | _ => none

/-- R1-Type opcodes (`30_encoding.md` R94). -/
def decodeR1 (op : BitVec 10) (r : Reg) : Option Instr :=
  match op.toNat with
  | 0 => some (.flg r)
  | 1 => some (.flr r)
  | 2 => some (.psw r)
  | 3 => some (.psl r)
  | 4 => some (.psh r)
  | 5 => some (.ppw r)
  | 6 => some (.ppl r)
  | 7 => some (.pph r)
  | _ => none

/-- R2-Type opcodes (`30_encoding.md` R95). -/
def decodeR2 (op : BitVec 7) (r s : Reg) : Option Instr :=
  match op.toNat with
  | 0 => some (.xch r s)
  | 1 => some (.xeq r s)
  | 2 => some (.xne r s)
  | 3 => some (.xlt r s)
  | 4 => some (.xgt r s)
  | 5 => some (.xle r s)
  | 6 => some (.xge r s)
  | 7 => some (.xat r s)
  | 8 => some (.xbt r s)
  | 9 => some (.xae r s)
  | 10 => some (.xbe r s)
  | 11 => some (.xyz r s)
  | 12 => some (.xnz r s)
  | 13 => some (.xyc r s)
  | 14 => some (.xnc r s)
  | 15 => some (.xyo r s)
  | 16 => some (.xno r s)
  | 17 => some (.xys r s)
  | 18 => some (.xns r s)
  | 19 => some (.xyp r s)
  | 20 => some (.xnp r s)
  | 21 => some (.not r s)
  | 22 => some (.neg r s)
  | 23 => some (.cmp r s)
  | 24 => some (.tst r s)
  | _ => none

/-- R3-Type opcodes; all sixteen are assigned (`30_encoding.md` R96). -/
def decodeR3 (op : BitVec 4) (r s t : Reg) : Option Instr :=
  match op.toNat with
  | 0 => some (.add r s t)
  | 1 => some (.adc r s t)
  | 2 => some (.sub r s t)
  | 3 => some (.sbb r s t)
  | 4 => some (.and r s t)
  | 5 => some (.orr r s t)
  | 6 => some (.xor r s t)
  | 7 => some (.mul r s t)
  | 8 => some (.div r s t)
  | 9 => some (.asl r s t)
  | 10 => some (.asr r s t)
  | 11 => some (.lsr r s t)
  | 12 => some (.rtl r s t)
  | 13 => some (.rtr r s t)
  | 14 => some (.rlc r s t)
  | 15 => some (.rrc r s t)
  | _ => none

/-- Memory-Type opcodes (`30_encoding.md` R97). -/
def decodeM (op : BitVec 5) (b : BitVec 1) (m : Mode) (r : Reg) (w1 : Word) : Option Instr :=
  match op.toNat, b.toNat with
  | 0, 0 => some (.ldw m r w1)
  | 0, 1 => some (.stw m r w1)
  | 1, 0 => some (.ldl m r w1)
  | 1, 1 => some (.stl m r w1)
  | 2, 0 => some (.ldh m r w1)
  | 2, 1 => some (.sth m r w1)
  | _, _ => none

/-- Jump-Type opcodes (`30_encoding.md` R98); RET ignores the second word (R102). -/
def decodeJ (op : BitVec 7) (r s : Reg) (w1 : Word) : Option Instr :=
  match op.toNat with
  | 0 => some (.jmp r s w1)
  | 1 => some (.jeq r s w1)
  | 2 => some (.jne r s w1)
  | 3 => some (.jlt r s w1)
  | 4 => some (.jgt r s w1)
  | 5 => some (.jle r s w1)
  | 6 => some (.jge r s w1)
  | 7 => some (.jat r s w1)
  | 8 => some (.jbt r s w1)
  | 9 => some (.jae r s w1)
  | 10 => some (.jbe r s w1)
  | 11 => some (.jyz r s w1)
  | 12 => some (.jnz r s w1)
  | 13 => some (.jyc r s w1)
  | 14 => some (.jnc r s w1)
  | 15 => some (.jyo r s w1)
  | 16 => some (.jno r s w1)
  | 17 => some (.jys r s w1)
  | 18 => some (.jns r s w1)
  | 19 => some (.jyp r s w1)
  | 20 => some (.jnp r s w1)
  | 21 => some (.lop r s w1)
  | 22 => some (.cal r s w1)
  | 23 => some (.ret r s)
  | _ => none

/-- R2I-Type opcodes (`30_encoding.md` R99). -/
def decodeR2I (op : BitVec 7) (r s : Reg) (w1 : Word) : Option Instr :=
  match op.toNat with
  | 0 => some (.adi r s w1)
  | 1 => some (.sbi r s w1)
  | 2 => some (.aci r s w1)
  | 3 => some (.sib r s w1)
  | 4 => some (.ani r s w1)
  | 5 => some (.ori r s w1)
  | 6 => some (.xri r s w1)
  | _ => none

/-- An opcode field without a row has no meaning (`30_encoding.md` R101). -/
def assigned (row : Option Instr) : Except Reject Instr :=
  match row with
  | some i => .ok i
  | none => .error .unassignedOpcode

/-- The instruction of the first word `w0` and the second word `w1`; a one-word type does not look at `w1`
(`30_encoding.md` R80, R104). The pseudo-instructions are never read: their words are those of ADD, ADI and ASL (R106). -/
def decode (w0 w1 : Word) : Except Reject Instr :=
  match (typeField w0).toNat with
  | 0 => assigned (decodeR0 (opcode10 w0))
  | 1 => assigned (decodeR1 (opcode10 w0) (rrrField w0))
  | 2 => assigned (decodeR2 (opcode7 w0) (rrrField w0) (sssField w0))
  | 3 => assigned (decodeR3 (opcode4 w0) (rrrField w0) (sssField w0) (tttField w0))
  | 4 => assigned (decodeM (opcode5 w0) (storeBit w0) (modeField w0) (rrrField w0) w1)
  | 5 => assigned (decodeJ (opcode7 w0) (rrrField w0) (sssField w0) w1)
  | 6 => assigned (decodeR2I (opcode7 w0) (rrrField w0) (sssField w0) w1)
  | _ => .error .undefinedType

/-! ### The encoder -/

/-- `000 oooooooooo 000`: the assembler writes 000 in the unused bits (`30_encoding.md` R82, R102). -/
def wordR0 (op : BitVec 10) : Word := 0b000#3 ++ op ++ 0b000#3

/-- `001 oooooooooo rrr` (`30_encoding.md` R83). -/
def wordR1 (op : BitVec 10) (r : Reg) : Word := 0b001#3 ++ op ++ r.code

/-- `010 ooooooo sss rrr` (`30_encoding.md` R84). -/
def wordR2 (op : BitVec 7) (r s : Reg) : Word := 0b010#3 ++ op ++ s.code ++ r.code

/-- `011 oooo ttt sss rrr` (`30_encoding.md` R85). -/
def wordR3 (op : BitVec 4) (r s t : Reg) : Word := 0b011#3 ++ op ++ t.code ++ s.code ++ r.code

/-- `100 ooooo b aaaa rrr` (`30_encoding.md` R86). -/
def wordM (op : BitVec 5) (b : BitVec 1) (m : Mode) (r : Reg) : Word := 0b100#3 ++ op ++ b ++ m.code ++ r.code

/-- `101 ooooooo sss rrr` (`30_encoding.md` R87). -/
def wordJ (op : BitVec 7) (r s : Reg) : Word := 0b101#3 ++ op ++ s.code ++ r.code

/-- `110 ooooooo sss rrr` (`30_encoding.md` R88). -/
def wordR2I (op : BitVec 7) (r s : Reg) : Word := 0b110#3 ++ op ++ s.code ++ r.code

/-- The instruction a pseudo-instruction stands for; any other instruction stands for itself (`30_encoding.md` R106). -/
def Instr.expand (i : Instr) : Instr :=
  match i with
  | .mov r s => .add r s .r0
  | .mvi r imm => .adi r .r0 imm
  | .lsl r s t => .asl r s t
  | i => i

/-- The first word of an instruction (`30_encoding.md` R93 to R99, R106). -/
def encodeW0 (i : Instr) : Word :=
  match i with
  | .hlt => wordR0 0
  | .nop => wordR0 1
  | .ldw m r _ => wordM 0 0 m r
  | .stw m r _ => wordM 0 1 m r
  | .ldl m r _ => wordM 1 0 m r
  | .stl m r _ => wordM 1 1 m r
  | .ldh m r _ => wordM 2 0 m r
  | .sth m r _ => wordM 2 1 m r
  | .xch r s => wordR2 0 r s
  | .xeq r s => wordR2 1 r s
  | .xne r s => wordR2 2 r s
  | .xlt r s => wordR2 3 r s
  | .xgt r s => wordR2 4 r s
  | .xle r s => wordR2 5 r s
  | .xge r s => wordR2 6 r s
  | .xat r s => wordR2 7 r s
  | .xbt r s => wordR2 8 r s
  | .xae r s => wordR2 9 r s
  | .xbe r s => wordR2 10 r s
  | .xyz r s => wordR2 11 r s
  | .xnz r s => wordR2 12 r s
  | .xyc r s => wordR2 13 r s
  | .xnc r s => wordR2 14 r s
  | .xyo r s => wordR2 15 r s
  | .xno r s => wordR2 16 r s
  | .xys r s => wordR2 17 r s
  | .xns r s => wordR2 18 r s
  | .xyp r s => wordR2 19 r s
  | .xnp r s => wordR2 20 r s
  | .not r s => wordR2 21 r s
  | .neg r s => wordR2 22 r s
  | .cmp r s => wordR2 23 r s
  | .tst r s => wordR2 24 r s
  | .add r s t => wordR3 0 r s t
  | .adc r s t => wordR3 1 r s t
  | .sub r s t => wordR3 2 r s t
  | .sbb r s t => wordR3 3 r s t
  | .and r s t => wordR3 4 r s t
  | .orr r s t => wordR3 5 r s t
  | .xor r s t => wordR3 6 r s t
  | .mul r s t => wordR3 7 r s t
  | .div r s t => wordR3 8 r s t
  | .asl r s t => wordR3 9 r s t
  | .asr r s t => wordR3 10 r s t
  | .lsr r s t => wordR3 11 r s t
  | .rtl r s t => wordR3 12 r s t
  | .rtr r s t => wordR3 13 r s t
  | .rlc r s t => wordR3 14 r s t
  | .rrc r s t => wordR3 15 r s t
  | .adi r s _ => wordR2I 0 r s
  | .sbi r s _ => wordR2I 1 r s
  | .aci r s _ => wordR2I 2 r s
  | .sib r s _ => wordR2I 3 r s
  | .ani r s _ => wordR2I 4 r s
  | .ori r s _ => wordR2I 5 r s
  | .xri r s _ => wordR2I 6 r s
  | .flg r => wordR1 0 r
  | .flr r => wordR1 1 r
  | .psw r => wordR1 2 r
  | .psl r => wordR1 3 r
  | .psh r => wordR1 4 r
  | .ppw r => wordR1 5 r
  | .ppl r => wordR1 6 r
  | .pph r => wordR1 7 r
  | .jmp r s _ => wordJ 0 r s
  | .jeq r s _ => wordJ 1 r s
  | .jne r s _ => wordJ 2 r s
  | .jlt r s _ => wordJ 3 r s
  | .jgt r s _ => wordJ 4 r s
  | .jle r s _ => wordJ 5 r s
  | .jge r s _ => wordJ 6 r s
  | .jat r s _ => wordJ 7 r s
  | .jbt r s _ => wordJ 8 r s
  | .jae r s _ => wordJ 9 r s
  | .jbe r s _ => wordJ 10 r s
  | .jyz r s _ => wordJ 11 r s
  | .jnz r s _ => wordJ 12 r s
  | .jyc r s _ => wordJ 13 r s
  | .jnc r s _ => wordJ 14 r s
  | .jyo r s _ => wordJ 15 r s
  | .jno r s _ => wordJ 16 r s
  | .jys r s _ => wordJ 17 r s
  | .jns r s _ => wordJ 18 r s
  | .jyp r s _ => wordJ 19 r s
  | .jnp r s _ => wordJ 20 r s
  | .lop r s _ => wordJ 21 r s
  | .cal r s _ => wordJ 22 r s
  | .ret r s => wordJ 23 r s
  | .mov r s => wordR3 0 r s .r0
  | .mvi r _ => wordR2I 0 r .r0
  | .lsl r s t => wordR3 9 r s t

/-- The second word of a two-word instruction; RET's is ignored and written as zero (`47_stack_call.md` R288). -/
def encodeW1 (i : Instr) : Option Word :=
  match i with
  | .ldw _ _ w1 => some w1
  | .stw _ _ w1 => some w1
  | .ldl _ _ w1 => some w1
  | .stl _ _ w1 => some w1
  | .ldh _ _ w1 => some w1
  | .sth _ _ w1 => some w1
  | .adi _ _ w1 => some w1
  | .sbi _ _ w1 => some w1
  | .aci _ _ w1 => some w1
  | .sib _ _ w1 => some w1
  | .ani _ _ w1 => some w1
  | .ori _ _ w1 => some w1
  | .xri _ _ w1 => some w1
  | .jmp _ _ w1 => some w1
  | .jeq _ _ w1 => some w1
  | .jne _ _ w1 => some w1
  | .jlt _ _ w1 => some w1
  | .jgt _ _ w1 => some w1
  | .jle _ _ w1 => some w1
  | .jge _ _ w1 => some w1
  | .jat _ _ w1 => some w1
  | .jbt _ _ w1 => some w1
  | .jae _ _ w1 => some w1
  | .jbe _ _ w1 => some w1
  | .jyz _ _ w1 => some w1
  | .jnz _ _ w1 => some w1
  | .jyc _ _ w1 => some w1
  | .jnc _ _ w1 => some w1
  | .jyo _ _ w1 => some w1
  | .jno _ _ w1 => some w1
  | .jys _ _ w1 => some w1
  | .jns _ _ w1 => some w1
  | .jyp _ _ w1 => some w1
  | .jnp _ _ w1 => some w1
  | .lop _ _ w1 => some w1
  | .cal _ _ w1 => some w1
  | .ret _ _ => some 0
  | .mvi _ w1 => some w1
  | .hlt | .nop => none
  | .flg _ | .flr _ | .psw _ | .psl _ | .psh _ | .ppw _ | .ppl _ | .pph _ => none
  | .xch _ _ | .xeq _ _ | .xne _ _ | .xlt _ _ | .xgt _ _ | .xle _ _ | .xge _ _ | .xat _ _ | .xbt _ _ | .xae _ _ | .xbe _ _ => none
  | .xyz _ _ | .xnz _ _ | .xyc _ _ | .xnc _ _ | .xyo _ _ | .xno _ _ | .xys _ _ | .xns _ _ | .xyp _ _ | .xnp _ _ => none
  | .not _ _ | .neg _ _ | .cmp _ _ | .tst _ _ | .mov _ _ => none
  | .add _ _ _ | .adc _ _ _ | .sub _ _ _ | .sbb _ _ _ | .and _ _ _ | .orr _ _ _ | .xor _ _ _ | .mul _ _ _ => none
  | .div _ _ _ | .asl _ _ _ | .asr _ _ _ | .lsr _ _ _ | .rtl _ _ _ | .rtr _ _ _ | .rlc _ _ _ | .rrc _ _ _ | .lsl _ _ _ => none

/-- The words of an instruction, the first at the lower address (`20_memory.md` R56). -/
def encode (i : Instr) : List Word := encodeW0 i :: (encodeW1 i).toList

/-! ### The opcode table's numbering -/

/-- The words of an opcode-table row whose bits are `w`: bits 15:0 are the first word and bits 31:16 the second, every
bit from `nbits` on is zero. -/
def tableWords (nbits w : Nat) : Word × Word :=
  (BitVec.ofNat 16 (w % 2 ^ nbits), BitVec.ofNat 16 (w % 2 ^ nbits / 2 ^ 16))

/-- The instruction the decoder reads from those words. -/
def decodeTableWord (nbits w : Nat) : Option Instr :=
  match decode (tableWords nbits w).1 (tableWords nbits w).2 with
  | .ok i => some i
  | .error _ => none

end Sys2Proof
end

