-- ==== Sys2Proof/Config.lean ====
section
/-! DEFINITION. The named parameters of `00_scope.md` R6 that are no function of an instruction's operands, and the
free values. `PARITY_FN` and `FLAG_LAYOUT` are definitions of Machine/Flags.lean; `ILLEGAL`, `PREV_OF_R0`,
`SHIFT_COUNT` and `MULDIV_SIGN` are the choices the decoder and the meanings make by the rules they cite. -/

namespace Sys2Proof

/-- The three kinds of access `MemAdmit` distinguishes (`00_scope.md` R6). -/
inductive Access where
  | fetch
  | read
  | write
  deriving DecidableEq, Repr

/-- The value the spec takes for `RESET_IP`, which `State.resetAt` has as an argument (`70_reset_and_hazards.md` R330;
log entry 3). -/
def Config.resetIp : Word := 0x0000

/-- The value the spec takes for `RESET_SP`, which `State.resetAt` has as an argument (`70_reset_and_hazards.md` R331;
log entry 3). -/
def Config.resetSp : Word := 0x0000

/-- `MEM_CELLS` (`20_memory.md` R50). -/
def Config.memCells : Nat := 65536

/-- `MemAdmit(addr, kind)`, with the value the spec takes: every access is admitted (`00_scope.md` R6,
`20_memory.md` R53, R54; log entry 9). -/
def Config.memAdmit (_addr : Word) (_kind : Access) : Bool := true

/-- The five flags that the n-th draw gives, in the layout of FLG, where a rule says `FL <- unspecified`
(`43_arithmetic_logic.md` R190, `70_reset_and_hazards.md` R332 (b)). DESIGN CHOICE, log entry 4. -/
opaque Config.freeFlags : Nat → BitVec 5

/-- The word that the n-th draw gives for the primary register of a DIV whose quotient needs more than 16 bits
(`43_arithmetic_logic.md` R199). DESIGN CHOICE, log entry 5. -/
opaque Config.freeQuotient : Nat → Word

/-- The word that the n-th draw gives for the register before the primary one of such a DIV
(`43_arithmetic_logic.md` R199). DESIGN CHOICE, log entry 5. -/
opaque Config.freeRemainder : Nat → Word

end Sys2Proof
end

