-- ==== Sys2Proof/Machine/State.lean ====
section
/-! DEFINITION. The state of IS as plain data (`10_state.md`), the ways a step can stop (`60_exceptions.md` R302), and
the state after reset (`70_reset_and_hazards.md` R330). -/

namespace Sys2Proof.Machine

/-- FL: five one-bit flags (`10_state.md` R26). -/
structure Flags where
  z : Bool
  s : Bool
  o : Bool
  c : Bool
  p : Bool
  deriving DecidableEq, Repr

/-- The whole state of the machine (`10_state.md`). r0 is hard-wired and has no storage (R21). -/
structure State where
  /-- r1 to r6, general purpose (`10_state.md` R22). -/
  r1 : Word
  r2 : Word
  r3 : Word
  r4 : Word
  r5 : Word
  r6 : Word
  /-- r7, also the index register of the indexed address modes (`10_state.md` R23). -/
  r7 : Word
  /-- IP, the address of the first word of the current instruction (`10_state.md` R24). -/
  ip : Word
  /-- SP, the address of the item pushed last (`10_state.md` R25, `47_stack_call.md` R280). -/
  sp : Word
  /-- FL (`10_state.md` R26). -/
  fl : Flags
  /-- Mem, as byte lanes: the low byte of cell `a` under key `2a`, its high byte under `2a + 1`, keys strictly rising;
  what is not listed has no value (`20_memory.md` R50, R55; log entries 7 and 8). -/
  mem : List Host.Cell
  /-- Set by HLT (`10_state.md` R29). -/
  halted : Bool
  /-- The model's own: how many times a step has drawn a free value (log entries 4 to 6). -/
  draws : Nat
  deriving DecidableEq, Repr

/-- The operands of a defined instruction give no result, or an access has none (`60_exceptions.md` R300, R302). No
state is changed and nothing continues: each is safe, since no claim about a next state can be proved from it. -/
inductive Fault where
  /-- DIV with a zero divisor (`43_arithmetic_logic.md` R199). Safe (log entry 16). -/
  | divideByZero
  /-- A fetch or a read of a cell that nothing has loaded or stored (`70_reset_and_hazards.md` R332 (a)). Safe (log entry 7). -/
  | unwrittenRead
  /-- Stuck: `MemAdmit` is false for the access (`20_memory.md` R53, R54). Safe; never with the spec's value (log entry 9). -/
  | memoryNotAdmitted
  deriving DecidableEq, Repr

/-- The instruction words have no meaning in the spec (`60_exceptions.md` R300, R302). Each is safe: no claim about a
next state can be proved from it. -/
inductive Refusal where
  /-- Type bits 111, raised by the fetch (`30_encoding.md` R100). Safe (log entry 13). -/
  | undefinedType
  /-- An opcode without a row, raised by the fetch (`30_encoding.md` R101). Safe (log entry 13). -/
  | unassignedOpcode
  /-- STW, STL, STH in mode `i` (`41_load_store.md` R134). Safe (log entry 14). -/
  | storeToImmediate
  /-- Mode `rd` or `rn` with operand bits 15:3 not zero (`41_load_store.md` R132). Safe (log entry 14). -/
  | reservedOperandBits
  /-- MUL or DIV on a pair whose lower register would stand before r0 (`43_arithmetic_logic.md` R198, R199). Safe (log entry 15). -/
  | noRegisterBeforeR0
  /-- An instruction that has no meaning yet, raised by an arm of `exec`; no arm raises it. Safe. -/
  | notModelled (mnemonic : String)
  deriving DecidableEq, Repr

/-- What an operation that may stop answers. -/
abbrev Result (α : Type) := Host.Outcome α Fault Refusal

/-- The machine right after reset on a platform with these values of `RESET_IP` and `RESET_SP`, before it has loaded an
image (`70_reset_and_hazards.md` R330, R331). IP, SP and `halted` are the spec's; r1 to r7 and FL are the model's choice
(log entries 1 and 2), as are the empty memory (log entries 7 and 11) and `draws` (log entry 6). -/
def State.resetAt (resetIp resetSp : Word) : State :=
  { r1 := 0, r2 := 0, r3 := 0, r4 := 0, r5 := 0, r6 := 0, r7 := 0
    ip := resetIp
    sp := resetSp
    fl := { z := false, s := false, o := false, c := false, p := false }
    mem := []
    halted := false
    draws := 0 }

/-- The machine right after reset with the values the spec takes for the two parameters (D30; log entry 3). -/
def State.reset : State := State.resetAt Config.resetIp Config.resetSp

end Sys2Proof.Machine
end

