-- ==== Sys2Proof/Machine/Flags.lean ====
section
/-! DEFINITION. Every flag computation and every condition (`45_compare_flags.md`). -/

namespace Sys2Proof.Machine

/-- How many 1 bits `v` has (`00_scope.md` R9). -/
def popcount (v : Word) : Nat := (List.range 16).countP (fun k => v.getLsbD k)

/-- `PARITY_FN`: an even number of 1 bits among all 16 (`45_compare_flags.md` R243, D10; log entry 19). -/
def parityFn (v : Word) : Bool := popcount v % 2 == 0

/-- The difference modulo 2^16 of `45_compare_flags.md` R242. -/
def difference (a b : Word) : Word := a - b

/-- `flags_sub(a, b)` (`45_compare_flags.md` R242, D8; log entry 19). -/
def flagsSub (a b : Word) : Flags :=
  { z := difference a b == 0
    s := (difference a b).msb
    o := a.msb != b.msb && (difference a b).msb != a.msb
    c := decide (a.toNat < b.toNat)
    p := parityFn (difference a b) }

/-- `flags_logic(v)` (`45_compare_flags.md` R243, D9; log entry 19). -/
def flagsLogic (v : Word) : Flags :=
  { z := v == 0
    s := v.msb
    o := false
    c := false
    p := parityFn v }

/-- `FLAG_LAYOUT`: bit 0 Z, bit 1 C, bit 2 O, bit 3 S, bit 4 P (`45_compare_flags.md` R246, D11; log entry 19). -/
def flagsOfBits (v : BitVec 5) : Flags :=
  { z := v.getLsbD 0
    c := v.getLsbD 1
    o := v.getLsbD 2
    s := v.getLsbD 3
    p := v.getLsbD 4 }

/-- The flags that FLG takes from a register: its low five bits; bits 15:5 are ignored (`45_compare_flags.md` R246). -/
def flagsOfWord (v : Word) : Flags := flagsOfBits (v.extractLsb' 0 5)

/-- The value 0 or 1 of `FL.C` as a word (`43_arithmetic_logic.md` R210). -/
def carryWord (f : Flags) : Word := if f.c then 1 else 0

/-- `cond(n, FL)` (`45_compare_flags.md` R241; D12 for "Greater Than"). -/
def condHolds (k : Cond) (f : Flags) : Bool :=
  match k with
  | .equal => f.z
  | .notEqual => !f.z
  | .lessThan => f.s != f.o
  | .greaterThan => !f.z && f.s == f.o
  | .lessEqual => f.z || f.s != f.o
  | .greaterEqual => f.s == f.o
  | .aboveThan => !f.c && !f.z
  | .belowThan => f.c
  | .aboveEqual => !f.c
  | .belowEqual => f.c || f.z
  | .zero => f.z
  | .notZero => !f.z
  | .carry => f.c
  | .notCarry => !f.c
  | .overflow => f.o
  | .notOverflow => !f.o
  | .sign => f.s
  | .notSign => !f.s
  | .parity => f.p
  | .notParity => !f.p

end Sys2Proof.Machine
end

