-- ==== Sys2Proof/Machine/Memory.lean ====
section
/-! DEFINITION. Memory as a list of byte lanes in canonical form, and the halves of a word (`20_memory.md` R50, R55). -/

namespace Sys2Proof.Machine

/-! ### Halves of a word -/

/-- Bits 7:0 (`00_scope.md` R8). -/
def lowByte (v : Word) : Byte := v.extractLsb' 0 8

/-- Bits 15:8 (`00_scope.md` R8). -/
def highByte (v : Word) : Byte := v.extractLsb' 8 8

/-- `hi : lo` (`00_scope.md` R9). -/
def joinBytes (hi lo : Byte) : Word := hi ++ lo

/-! ### Byte lanes -/

/-- What the lane under key `k` holds; a lane that is not listed has no value (log entry 7). -/
def readLane (m : List Host.Cell) (k : Nat) : Option Byte :=
  match m with
  | [] => none
  | (k', b) :: rest => if k = k' then some b else readLane rest k

/-- The lane under key `k` holds `b` from now on; keys stay strictly rising. -/
def writeLane (m : List Host.Cell) (k : Nat) (b : Byte) : List Host.Cell :=
  match m with
  | [] => [(k, b)]
  | (k', b') :: rest =>
    if k < k' then (k, b) :: (k', b') :: rest
    else if k = k' then (k, b) :: rest
    else (k', b') :: writeLane rest k b

/-- The key of the low byte of a cell (log entry 8). -/
def lowLane (a : Word) : Nat := 2 * a.toNat

/-- The key of the high byte of a cell (log entry 8). -/
def highLane (a : Word) : Nat := 2 * a.toNat + 1

/-! ### Cells -/

/-- The 16 bits of cell `a`, where both its bytes are listed. -/
def readCell (m : List Host.Cell) (a : Word) : Option Word :=
  match readLane m (highLane a), readLane m (lowLane a) with
  | some hi, some lo => some (joinBytes hi lo)
  | _, _ => none

/-- The whole cell `a` is replaced (`20_memory.md` R54). -/
def writeCell (m : List Host.Cell) (a v : Word) : List Host.Cell :=
  writeLane (writeLane m (lowLane a) (lowByte v)) (highLane a) (highByte v)

/-! ### The canonical form -/

/-- Every key of `m` is above `k`. -/
def keysAbove (k : Nat) (m : List Host.Cell) : Bool := m.all (fun c => decide (k < c.1))

/-- Keys strictly rising. -/
def keysRise (m : List Host.Cell) : Bool :=
  match m with
  | [] => true
  | (k, _) :: rest => keysAbove k rest && keysRise rest

/-- Every key is a lane of one of the `MEM_CELLS` cells (`20_memory.md` R50). -/
def keysInRange (m : List Host.Cell) : Bool := m.all (fun c => decide (c.1 < 2 * Config.memCells))

/-- The other byte of every listed byte's cell is listed too: memory is written by whole cells only
(`20_memory.md` R54, R55). -/
def lanesPaired (m : List Host.Cell) : Bool :=
  m.all (fun c => (readLane m (if c.1 % 2 = 0 then c.1 + 1 else c.1 - 1)).isSome)

/-- The canonical form of memory. An unlisted lane has no value, so no entry can equal what it reads as. -/
def Memory.wf (m : List Host.Cell) : Bool := keysRise m && keysInRange m && lanesPaired m

end Sys2Proof.Machine
end

