-- ==== Sys2Proof/Machine/Ops.lean ====
section
/-! DEFINITION. The named operations over registers, IP, SP, FL, memory and the stack (`00_scope.md` R10), and what a
meaning shares with others: the end of a rule, the draw of free values, the J-type comparison. IS takes no exception
and returns from none (`60_exceptions.md` R301, R305, R307), so no operation stands here for either. -/

namespace Sys2Proof.Machine

/-- Go on with `f` where `x` answers a value; stop as `x` stops otherwise. -/
def andThen {α β : Type} (x : Result α) (f : α → Result β) : Result β :=
  match x with
  | .next a => f a
  | .fault e => .fault e
  | .refused e => .refused e

/-! ### Registers -/

/-- `x[i]`: r0 reads as zero (`10_state.md` R21). -/
def State.reg (s : State) (r : Reg) : Word :=
  match r with
  | .r0 => 0
  | .r1 => s.r1
  | .r2 => s.r2
  | .r3 => s.r3
  | .r4 => s.r4
  | .r5 => s.r5
  | .r6 => s.r6
  | .r7 => s.r7

/-- `x[i] <- v`: a write of r0 is discarded (`10_state.md` R21). -/
def State.setReg (s : State) (r : Reg) (v : Word) : State :=
  match r with
  | .r0 => s
  | .r1 => { s with r1 := v }
  | .r2 => { s with r2 := v }
  | .r3 => { s with r3 := v }
  | .r4 => { s with r4 := v }
  | .r5 => { s with r5 := v }
  | .r6 => { s with r6 := v }
  | .r7 => { s with r7 := v }

/-- The register numbered one below, which MUL and DIV use; r0 has none (`43_arithmetic_logic.md` R198, `PREV_OF_R0`). -/
def Reg.before (r : Reg) : Option Reg :=
  match r with
  | .r0 => none
  | .r1 => some .r0
  | .r2 => some .r1
  | .r3 => some .r2
  | .r4 => some .r3
  | .r5 => some .r4
  | .r6 => some .r5
  | .r7 => some .r6

/-- The register before `r`, or the refusal of the encoding (`43_arithmetic_logic.md` R198, R199; log entry 15). -/
def registerBefore (r : Reg) : Result Reg :=
  match Reg.before r with
  | some q => .next q
  | none => .refused .noRegisterBeforeR0

/-! ### IP, SP, FL, halted -/

/-- `IP <- v`. -/
def State.setIp (s : State) (v : Word) : State := { s with ip := v }

/-- `SP <- v`. -/
def State.setSp (s : State) (v : Word) : State := { s with sp := v }

/-- `FL <- f`. -/
def State.setFlags (s : State) (f : Flags) : State := { s with fl := f }

/-- `halted <- true` (`40_program_control.md` R120). -/
def State.halt (s : State) : State := { s with halted := true }

/-- The address of the instruction after one of `len` words, modulo 2^16 (`10_state.md` R24). -/
def State.nextIp (s : State) (len : Word) : Word := s.ip + len

/-- `IP <- next`, the default end of a rule (`00_scope.md` R11). -/
def State.advance (s : State) (len : Word) : State := s.setIp (s.nextIp len)

/-- `FL <- unspecified`: the flags of a fresh draw (`43_arithmetic_logic.md` R190; log entry 4). -/
def State.drawFlags (s : State) : State :=
  { s with fl := flagsOfBits (Config.freeFlags s.draws), draws := s.draws + 1 }

/-! ### Memory -/

/-- What cell `a` holds, where it holds a value. -/
def State.cell (s : State) (a : Word) : Option Word := readCell s.mem a

/-- What the byte lane `k` holds: the model's read of one byte (log entry 8). -/
def State.lane (s : State) (k : Nat) : Option Byte := readLane s.mem k

/-- `Mem` with the whole cell `a` replaced. -/
def State.setCell (s : State) (a v : Word) : State := { s with mem := writeCell s.mem a v }

/-- `MemRead(addr, 1)` (`20_memory.md` R53; a cell without a value, `70_reset_and_hazards.md` R332 (a)). -/
def memRead (kind : Access) (a : Word) (s : State) : Result Word :=
  if Config.memAdmit a kind then
    match s.cell a with
    | some v => .next v
    | none => .fault .unwrittenRead
  else .fault .memoryNotAdmitted

/-- `MemWrite(addr, 1, v)` (`20_memory.md` R54). -/
def memWrite (a v : Word) (s : State) : Result State :=
  if Config.memAdmit a .write then .next (s.setCell a v) else .fault .memoryNotAdmitted

/-! ### The stack -/

/-- `push(v)`: SP moves first, the write uses the new SP (`47_stack_call.md` R280). -/
def push (v : Word) (s : State) : Result State := memWrite (s.sp - 1) v (s.setSp (s.sp - 1))

/-- `pop()`: the read uses the old SP, SP moves after; answers the item and the state (`47_stack_call.md` R280). -/
def pop (s : State) : Result (Word × State) :=
  andThen (memRead .read s.sp s) fun v => .next (v, s.setSp (s.sp + 1))

/-! ### Shared ends of meanings -/

/-- The end of the arithmetic, logic, shift and rotate instructions: the result, FL unspecified, the next instruction
(`43_arithmetic_logic.md` R190, R191). -/
def finishAlu (r : Reg) (v : Word) (len : Word) (s : State) : Result State :=
  .next (((s.setReg r v).drawFlags).advance len)

/-- A conditional move of the secondary register to the primary one (`42_move_exchange.md` R163). -/
def copyIf (k : Cond) (r q : Reg) (s : State) : Result State :=
  .next ((if condHolds k s.fl then s.setReg r (s.reg q) else s).advance 1)

/-- The J-type comparison: made unless both register fields are 000 (`46_jump_loop.md` R250). -/
def jumpCompare (r q : Reg) (s : State) : State :=
  if r = .r0 ∧ q = .r0 then s else s.setFlags (flagsSub (s.reg r) (s.reg q))

/-- IP after a J-type instruction that may be taken: the absolute target, or the instruction after its two words
(`46_jump_loop.md` R251). -/
def jumpIf (taken : Bool) (target : Word) (s : State) : State :=
  if taken then s.setIp target else s.advance 2

/-- A comparing conditional jump (`46_jump_loop.md` R250, R251). -/
def compareAndJump (k : Cond) (r q : Reg) (target : Word) (s : State) : Result State :=
  .next (jumpIf (condHolds k (jumpCompare r q s).fl) target (jumpCompare r q s))

end Sys2Proof.Machine
end

