-- ==== Sys2Proof/Machine/Arith.lean ====
section
/-! DEFINITION. Arithmetic and logic in register and immediate forms (`43_arithmetic_logic.md`). Sums and differences
of words are modulo 2^16 (R210). Every instruction here leaves FL unspecified (R190; log entry 4). -/

namespace Sys2Proof.Machine

/-- ADD (`43_arithmetic_logic.md` R191). -/
def execAdd (r q t : Reg) (s : State) : Result State := finishAlu r (s.reg q + s.reg t) 1 s

/-- ADC (`43_arithmetic_logic.md` R192). -/
def execAdc (r q t : Reg) (s : State) : Result State := finishAlu r (s.reg q + s.reg t + carryWord s.fl) 1 s

/-- SUB (`43_arithmetic_logic.md` R193). -/
def execSub (r q t : Reg) (s : State) : Result State := finishAlu r (s.reg q - s.reg t) 1 s

/-- SBB: the carry flag is subtracted (`43_arithmetic_logic.md` R194). -/
def execSbb (r q t : Reg) (s : State) : Result State := finishAlu r (s.reg q - s.reg t - carryWord s.fl) 1 s

/-- AND (`43_arithmetic_logic.md` R195). -/
def execAnd (r q t : Reg) (s : State) : Result State := finishAlu r (s.reg q &&& s.reg t) 1 s

/-- ORR (`43_arithmetic_logic.md` R196). -/
def execOrr (r q t : Reg) (s : State) : Result State := finishAlu r (s.reg q ||| s.reg t) 1 s

/-- XOR (`43_arithmetic_logic.md` R197). -/
def execXor (r q t : Reg) (s : State) : Result State := finishAlu r (s.reg q ^^^ s.reg t) 1 s

/-- The exact unsigned product of two words (`43_arithmetic_logic.md` R198, D17; log entry 20). -/
def product (a b : Word) : Nat := a.toNat * b.toNat

/-- MUL: the register before the primary one gets the upper half, the primary one the lower (`43_arithmetic_logic.md` R198). -/
def execMul (r q t : Reg) (s : State) : Result State :=
  andThen (registerBefore r) fun h =>
    finishAlu r (BitVec.ofNat 16 (product (s.reg q) (s.reg t))) 1
      (s.setReg h (BitVec.ofNat 16 (product (s.reg q) (s.reg t) / 2 ^ 16)))

/-- The 32-bit unsigned dividend of a register pair (`43_arithmetic_logic.md` R199, `20_memory.md` R56). -/
def dividend (hi lo : Word) : Nat := hi.toNat * 2 ^ 16 + lo.toNat

/-- The division of `n` by `d`: quotient to `r`, modulus to `h`; both unspecified where the quotient does not fit
(`43_arithmetic_logic.md` R199, D18; log entries 5 and 16). -/
def divideInto (r h : Reg) (n d : Nat) (s : State) : Result State :=
  if d = 0 then .fault .divideByZero
  else if n / d < 2 ^ 16 then
    finishAlu h (BitVec.ofNat 16 (n % d)) 1 (s.setReg r (BitVec.ofNat 16 (n / d)))
  else
    finishAlu h (Config.freeRemainder s.draws) 1 (s.setReg r (Config.freeQuotient s.draws))

/-- DIV (`43_arithmetic_logic.md` R199). -/
def execDiv (r q t : Reg) (s : State) : Result State :=
  andThen (registerBefore r) fun h =>
    andThen (registerBefore q) fun u =>
      divideInto r h (dividend (s.reg u) (s.reg q)) (s.reg t).toNat s

/-- NOT (`43_arithmetic_logic.md` R200). -/
def execNot (r q : Reg) (s : State) : Result State := finishAlu r (~~~ s.reg q) 1 s

/-- NEG (`43_arithmetic_logic.md` R201). -/
def execNeg (r q : Reg) (s : State) : Result State := finishAlu r (0 - s.reg q) 1 s

/-- ADI (`43_arithmetic_logic.md` R203). -/
def execAdi (r q : Reg) (imm : Word) (s : State) : Result State := finishAlu r (s.reg q + imm) 2 s

/-- SBI (`43_arithmetic_logic.md` R204). -/
def execSbi (r q : Reg) (imm : Word) (s : State) : Result State := finishAlu r (s.reg q - imm) 2 s

/-- ACI (`43_arithmetic_logic.md` R205). -/
def execAci (r q : Reg) (imm : Word) (s : State) : Result State := finishAlu r (s.reg q + imm + carryWord s.fl) 2 s

/-- SIB (`43_arithmetic_logic.md` R206). -/
def execSib (r q : Reg) (imm : Word) (s : State) : Result State := finishAlu r (s.reg q - imm - carryWord s.fl) 2 s

/-- ANI (`43_arithmetic_logic.md` R207). -/
def execAni (r q : Reg) (imm : Word) (s : State) : Result State := finishAlu r (s.reg q &&& imm) 2 s

/-- ORI (`43_arithmetic_logic.md` R208). -/
def execOri (r q : Reg) (imm : Word) (s : State) : Result State := finishAlu r (s.reg q ||| imm) 2 s

/-- XRI (`43_arithmetic_logic.md` R209). -/
def execXri (r q : Reg) (imm : Word) (s : State) : Result State := finishAlu r (s.reg q ^^^ imm) 2 s

end Sys2Proof.Machine
end

