-- ==== Sys2Proof/Machine/Compare.lean ====
section
/-! DEFINITION. The four instructions whose only effect is on FL (`45_compare_flags.md`). -/

namespace Sys2Proof.Machine

/-- CMP (`45_compare_flags.md` R244). -/
def execCmp (r q : Reg) (s : State) : Result State :=
  .next ((s.setFlags (flagsSub (s.reg r) (s.reg q))).advance 1)

/-- TST (`45_compare_flags.md` R245). -/
def execTst (r q : Reg) (s : State) : Result State :=
  .next ((s.setFlags (flagsLogic (s.reg r &&& s.reg q))).advance 1)

/-- FLG (`45_compare_flags.md` R246). -/
def execFlg (r : Reg) (s : State) : Result State :=
  .next ((s.setFlags (flagsOfWord (s.reg r))).advance 1)

/-- FLR (`45_compare_flags.md` R247). -/
def execFlr (r : Reg) (s : State) : Result State :=
  .next ((s.setFlags (flagsLogic (s.reg r))).advance 1)

end Sys2Proof.Machine
end

