-- ==== Sys2Proof/Machine/Control.lean ====
section
/-! DEFINITION. Program control: HLT and NOP (`40_program_control.md`). -/

namespace Sys2Proof.Machine

/-- HLT: stops the machine and leaves IP at its own word (`40_program_control.md` R120). -/
def execHlt (s : State) : Result State := .next s.halt

/-- NOP (`40_program_control.md` R121). -/
def execNop (s : State) : Result State := .next (s.advance 1)

end Sys2Proof.Machine
end

