-- ==== Sys2Proof/Machine/Exchange.lean ====
section
/-! DEFINITION. The exchange and the twenty conditional exchanges (`42_move_exchange.md`), which are one-way
conditional moves on the standing flags (R163, D38; log entry 19). -/

namespace Sys2Proof.Machine

/-- XCH: both registers are read before either is written (`42_move_exchange.md` R162). -/
def execXch (r q : Reg) (s : State) : Result State :=
  .next (((s.setReg r (s.reg q)).setReg q (s.reg r)).advance 1)

/-- XEQ (`42_move_exchange.md` R164). -/
def execXeq (r q : Reg) (s : State) : Result State := copyIf .equal r q s

/-- XNE (`42_move_exchange.md` R165). -/
def execXne (r q : Reg) (s : State) : Result State := copyIf .notEqual r q s

/-- XLT (`42_move_exchange.md` R166). -/
def execXlt (r q : Reg) (s : State) : Result State := copyIf .lessThan r q s

/-- XGT (`42_move_exchange.md` R167). -/
def execXgt (r q : Reg) (s : State) : Result State := copyIf .greaterThan r q s

/-- XLE (`42_move_exchange.md` R168). -/
def execXle (r q : Reg) (s : State) : Result State := copyIf .lessEqual r q s

/-- XGE (`42_move_exchange.md` R169). -/
def execXge (r q : Reg) (s : State) : Result State := copyIf .greaterEqual r q s

/-- XAT (`42_move_exchange.md` R170). -/
def execXat (r q : Reg) (s : State) : Result State := copyIf .aboveThan r q s

/-- XBT (`42_move_exchange.md` R171). -/
def execXbt (r q : Reg) (s : State) : Result State := copyIf .belowThan r q s

/-- XAE (`42_move_exchange.md` R172). -/
def execXae (r q : Reg) (s : State) : Result State := copyIf .aboveEqual r q s

/-- XBE (`42_move_exchange.md` R173). -/
def execXbe (r q : Reg) (s : State) : Result State := copyIf .belowEqual r q s

/-- XYZ (`42_move_exchange.md` R174). -/
def execXyz (r q : Reg) (s : State) : Result State := copyIf .zero r q s

/-- XNZ (`42_move_exchange.md` R175). -/
def execXnz (r q : Reg) (s : State) : Result State := copyIf .notZero r q s

/-- XYC (`42_move_exchange.md` R176). -/
def execXyc (r q : Reg) (s : State) : Result State := copyIf .carry r q s

/-- XNC (`42_move_exchange.md` R177). -/
def execXnc (r q : Reg) (s : State) : Result State := copyIf .notCarry r q s

/-- XYO (`42_move_exchange.md` R178). -/
def execXyo (r q : Reg) (s : State) : Result State := copyIf .overflow r q s

/-- XNO (`42_move_exchange.md` R179). -/
def execXno (r q : Reg) (s : State) : Result State := copyIf .notOverflow r q s

/-- XYS (`42_move_exchange.md` R180). -/
def execXys (r q : Reg) (s : State) : Result State := copyIf .sign r q s

/-- XNS (`42_move_exchange.md` R181). -/
def execXns (r q : Reg) (s : State) : Result State := copyIf .notSign r q s

/-- XYP (`42_move_exchange.md` R182). -/
def execXyp (r q : Reg) (s : State) : Result State := copyIf .parity r q s

/-- XNP (`42_move_exchange.md` R183). -/
def execXnp (r q : Reg) (s : State) : Result State := copyIf .notParity r q s

end Sys2Proof.Machine
end

