-- ==== Sys2Proof/Machine/Jump.lean ====
section
/-! DEFINITION. Jumps and the loop instruction (`46_jump_loop.md`). -/

namespace Sys2Proof.Machine

/-- JMP: always taken; it too compares where a register field is not 000 (`46_jump_loop.md` R250, R252). -/
def execJmp (r q : Reg) (target : Word) (s : State) : Result State :=
  .next ((jumpCompare r q s).setIp target)

/-- JEQ (`46_jump_loop.md` R253). -/
def execJeq (r q : Reg) (target : Word) (s : State) : Result State := compareAndJump .equal r q target s

/-- JNE (`46_jump_loop.md` R254). -/
def execJne (r q : Reg) (target : Word) (s : State) : Result State := compareAndJump .notEqual r q target s

/-- JLT (`46_jump_loop.md` R255). -/
def execJlt (r q : Reg) (target : Word) (s : State) : Result State := compareAndJump .lessThan r q target s

/-- JGT (`46_jump_loop.md` R256). -/
def execJgt (r q : Reg) (target : Word) (s : State) : Result State := compareAndJump .greaterThan r q target s

/-- JLE (`46_jump_loop.md` R257). -/
def execJle (r q : Reg) (target : Word) (s : State) : Result State := compareAndJump .lessEqual r q target s

/-- JGE (`46_jump_loop.md` R258). -/
def execJge (r q : Reg) (target : Word) (s : State) : Result State := compareAndJump .greaterEqual r q target s

/-- JAT (`46_jump_loop.md` R259). -/
def execJat (r q : Reg) (target : Word) (s : State) : Result State := compareAndJump .aboveThan r q target s

/-- JBT (`46_jump_loop.md` R260). -/
def execJbt (r q : Reg) (target : Word) (s : State) : Result State := compareAndJump .belowThan r q target s

/-- JAE (`46_jump_loop.md` R261). -/
def execJae (r q : Reg) (target : Word) (s : State) : Result State := compareAndJump .aboveEqual r q target s

/-- JBE (`46_jump_loop.md` R262). -/
def execJbe (r q : Reg) (target : Word) (s : State) : Result State := compareAndJump .belowEqual r q target s

/-- JYZ (`46_jump_loop.md` R263). -/
def execJyz (r q : Reg) (target : Word) (s : State) : Result State := compareAndJump .zero r q target s

/-- JNZ (`46_jump_loop.md` R264). -/
def execJnz (r q : Reg) (target : Word) (s : State) : Result State := compareAndJump .notZero r q target s

/-- JYC (`46_jump_loop.md` R265). -/
def execJyc (r q : Reg) (target : Word) (s : State) : Result State := compareAndJump .carry r q target s

/-- JNC (`46_jump_loop.md` R266). -/
def execJnc (r q : Reg) (target : Word) (s : State) : Result State := compareAndJump .notCarry r q target s

/-- JYO (`46_jump_loop.md` R267). -/
def execJyo (r q : Reg) (target : Word) (s : State) : Result State := compareAndJump .overflow r q target s

/-- JNO (`46_jump_loop.md` R268). -/
def execJno (r q : Reg) (target : Word) (s : State) : Result State := compareAndJump .notOverflow r q target s

/-- JYS (`46_jump_loop.md` R269). -/
def execJys (r q : Reg) (target : Word) (s : State) : Result State := compareAndJump .sign r q target s

/-- JNS (`46_jump_loop.md` R270). -/
def execJns (r q : Reg) (target : Word) (s : State) : Result State := compareAndJump .notSign r q target s

/-- JYP (`46_jump_loop.md` R271). -/
def execJyp (r q : Reg) (target : Word) (s : State) : Result State := compareAndJump .parity r q target s

/-- JNP (`46_jump_loop.md` R272). -/
def execJnp (r q : Reg) (target : Word) (s : State) : Result State := compareAndJump .notParity r q target s

/-- LOP: compares, then tests Z, then decrements whether or not it jumps; the decrement writes no flag
(`46_jump_loop.md` R273). -/
def execLop (r q : Reg) (target : Word) (s : State) : Result State :=
  .next (jumpIf (!(jumpCompare r q s).fl.z) target ((jumpCompare r q s).setReg r (s.reg r - 1)))

end Sys2Proof.Machine
end

