-- ==== Sys2Proof/Machine/Operands.lean ====
section
/-! DEFINITION. The sixteen address modes (`41_load_store.md` R131 to R135). -/

namespace Sys2Proof.Machine

/-- The inner `Mem[...]` of an indirect, offset or deferred mode: one cell read (`41_load_store.md` R131). -/
def pointer (a : Word) (s : State) : Result Word := memRead .read a s

/-- `reg` of modes `rd` and `rn`: the register whose number is in the operand word, bits 15:3 zero
(`41_load_store.md` R132; log entry 14). -/
def operandRegister (operand : Word) (s : State) : Result Word :=
  if operand.extractLsb' 3 13 = 0 then .next (s.reg (Reg.ofCode (operand.extractLsb' 0 3)))
  else .refused .reservedOperandBits

/-- `EA(mode, w1)`: the address of the outermost `Mem[...]` (`41_load_store.md` R131, R135). Mode `i` has none: it is
a value, not a place (R134; log entry 14). -/
def effectiveAddress (m : Mode) (operand : Word) (s : State) : Result Word :=
  match m with
  | .i => .refused .storeToImmediate
  | .id => .next operand
  | .in_ => pointer operand s
  | .rd => operandRegister operand s
  | .rn => andThen (operandRegister operand s) fun a => pointer a s
  | .xd => .next (s.r7 + operand)
  | .xn => pointer (s.r7 + operand) s
  | .xo => andThen (pointer s.r7 s) fun p => .next (p + operand)
  | .xf => andThen (pointer operand s) fun p => .next (p + s.r7)
  | .sd => .next (s.sp + operand)
  | .sn => pointer (s.sp + operand) s
  | .so => andThen (pointer s.sp s) fun p => .next (p + operand)
  | .sxd => .next (s.sp + s.r7 + operand)
  | .sxn => pointer (s.sp + s.r7 + operand) s
  | .sxo => andThen (pointer (s.sp + s.r7) s) fun p => .next (p + operand)
  | .sxf => andThen (pointer (s.sp + operand) s) fun p => .next (p + s.r7)

/-- `Value(mode, w1)`: the operand itself in mode `i`, the cell at `EA` in every other (`41_load_store.md` R133, R135). -/
def loadValue (m : Mode) (operand : Word) (s : State) : Result Word :=
  if m = .i then .next operand
  else andThen (effectiveAddress m operand s) fun a => memRead .read a s

/-- A load: `merge` says what the value of the mode makes of the primary register (`41_load_store.md` R136, R139, R141). -/
def load (merge : Word → Word → Word) (m : Mode) (r : Reg) (operand : Word) (s : State) : Result State :=
  andThen (loadValue m operand s) fun v => .next ((s.setReg r (merge (s.reg r) v)).advance 2)

/-- A byte store: the cell is read, `merge` puts the low byte of the primary register into it, and it is written
(`20_memory.md` R55, `41_load_store.md` R138, R140, R142). -/
def storeByte (merge : Word → Word → Word) (m : Mode) (r : Reg) (operand : Word) (s : State) : Result State :=
  andThen (effectiveAddress m operand s) fun a =>
    andThen (memRead .read a s) fun old =>
      andThen (memWrite a (merge old (s.reg r)) s) fun t => .next (t.advance 2)

/-- The low byte of `v` replaces the low byte of `old` (`41_load_store.md` R138). -/
def mergeLow (old v : Word) : Word := joinBytes (highByte old) (lowByte v)

/-- The low byte of `v` replaces the high byte of `old` (`41_load_store.md` R138). -/
def mergeHigh (old v : Word) : Word := joinBytes (lowByte v) (lowByte old)

end Sys2Proof.Machine
end

