-- ==== Sys2Proof/Machine/LoadStore.lean ====
section
/-! DEFINITION. Loads and stores (`41_load_store.md`). -/

namespace Sys2Proof.Machine

/-- LDW: the whole value (`41_load_store.md` R136). -/
def execLdw (m : Mode) (r : Reg) (operand : Word) (s : State) : Result State := load (fun _ v => v) m r operand s

/-- STW: no cell is read but a pointer (`41_load_store.md` R137). -/
def execStw (m : Mode) (r : Reg) (operand : Word) (s : State) : Result State :=
  andThen (effectiveAddress m operand s) fun a =>
    andThen (memWrite a (s.reg r) s) fun t => .next (t.advance 2)

/-- LDL: the high byte of the register is kept (`41_load_store.md` R139). -/
def execLdl (m : Mode) (r : Reg) (operand : Word) (s : State) : Result State := load mergeLow m r operand s

/-- STL: the high byte of the cell is kept (`41_load_store.md` R140). -/
def execStl (m : Mode) (r : Reg) (operand : Word) (s : State) : Result State := storeByte mergeLow m r operand s

/-- LDH: the low byte of the value goes to the high byte of the register (`41_load_store.md` R141). -/
def execLdh (m : Mode) (r : Reg) (operand : Word) (s : State) : Result State := load mergeHigh m r operand s

/-- STH: the low byte of the register goes to the high byte of the cell (`41_load_store.md` R142). -/
def execSth (m : Mode) (r : Reg) (operand : Word) (s : State) : Result State := storeByte mergeHigh m r operand s

end Sys2Proof.Machine
end

