-- ==== Sys2Proof/Machine/Shift.lean ====
section
/-! DEFINITION. Shifts and rotates (`44_shift_rotate.md`). The count is the whole register, unsigned (R220, D20; log
entry 20). Every instruction here leaves FL unspecified (R190, R220; log entry 4). -/

namespace Sys2Proof.Machine

/-- ASL of `v` by `n` places (`44_shift_rotate.md` R221). -/
def shiftLeft (v : Word) (n : Nat) : Word :=
  if 16 ≤ n then 0 else BitVec.ofNat 16 (v.toNat * 2 ^ n)

/-- ASR of `v` by `n` places: the floor of the signed value over 2^min(n,15) (`44_shift_rotate.md` R222). -/
def shiftRightArith (v : Word) (n : Nat) : Word := BitVec.ofInt 16 (v.toInt / 2 ^ min n 15)

/-- LSR of `v` by `n` places (`44_shift_rotate.md` R224). -/
def shiftRightLogic (v : Word) (n : Nat) : Word :=
  if 16 ≤ n then 0 else BitVec.ofNat 16 (v.toNat / 2 ^ n)

/-- RTL of `v` by `n` places within 16 bits (`44_shift_rotate.md` R225). -/
def rotLeft (v : Word) (n : Nat) : Word := v.rotateLeft (n % 16)

/-- RTR of `v` by `n` places within 16 bits (`44_shift_rotate.md` R226). -/
def rotRight (v : Word) (n : Nat) : Word := v.rotateRight (n % 16)

/-- The ring of RLC: the carry is bit 16, the register bits 15:0 (`44_shift_rotate.md` R227, D21). -/
def ringCarryHigh (c : Bool) (v : Word) : BitVec 17 := BitVec.ofBool c ++ v

/-- The ring of RRC: the register is bits 16:1, the carry bit 0 (`44_shift_rotate.md` R228, D21). -/
def ringCarryLow (c : Bool) (v : Word) : BitVec 17 := v ++ BitVec.ofBool c

/-- RLC: what stands where the register stood after a rotation to the left (`44_shift_rotate.md` R227). -/
def rotLeftCarry (c : Bool) (v : Word) (n : Nat) : Word :=
  ((ringCarryHigh c v).rotateLeft (n % 17)).extractLsb' 0 16

/-- RRC: what stands where the register stood after a rotation to the right (`44_shift_rotate.md` R228). -/
def rotRightCarry (c : Bool) (v : Word) (n : Nat) : Word :=
  ((ringCarryLow c v).rotateRight (n % 17)).extractLsb' 1 16

/-- ASL (`44_shift_rotate.md` R221). -/
def execAsl (r q t : Reg) (s : State) : Result State := finishAlu r (shiftLeft (s.reg q) (s.reg t).toNat) 1 s

/-- ASR (`44_shift_rotate.md` R222). -/
def execAsr (r q t : Reg) (s : State) : Result State := finishAlu r (shiftRightArith (s.reg q) (s.reg t).toNat) 1 s

/-- LSR (`44_shift_rotate.md` R224). -/
def execLsr (r q t : Reg) (s : State) : Result State := finishAlu r (shiftRightLogic (s.reg q) (s.reg t).toNat) 1 s

/-- RTL (`44_shift_rotate.md` R225). -/
def execRtl (r q t : Reg) (s : State) : Result State := finishAlu r (rotLeft (s.reg q) (s.reg t).toNat) 1 s

/-- RTR (`44_shift_rotate.md` R226). -/
def execRtr (r q t : Reg) (s : State) : Result State := finishAlu r (rotRight (s.reg q) (s.reg t).toNat) 1 s

/-- RLC: the carry is read before FL becomes unspecified (`44_shift_rotate.md` R227). -/
def execRlc (r q t : Reg) (s : State) : Result State :=
  finishAlu r (rotLeftCarry s.fl.c (s.reg q) (s.reg t).toNat) 1 s

/-- RRC: the carry is read before FL becomes unspecified (`44_shift_rotate.md` R228). -/
def execRrc (r q t : Reg) (s : State) : Result State :=
  finishAlu r (rotRightCarry s.fl.c (s.reg q) (s.reg t).toNat) 1 s

end Sys2Proof.Machine
end

