-- ==== Sys2Proof/Machine/Pseudo.lean ====
section
/-! DEFINITION. The pseudo-instructions: each has every effect of its expansion (`30_encoding.md` R106; log entry 12). -/

namespace Sys2Proof.Machine

/-- MOV rP, rS is ADD rP, rS, r0 (`42_move_exchange.md` R160). -/
def execMov (r q : Reg) (s : State) : Result State := execAdd r q .r0 s

/-- MVI rP, imm is ADI rP, r0, imm (`42_move_exchange.md` R161). -/
def execMvi (r : Reg) (imm : Word) (s : State) : Result State := execAdi r .r0 imm s

/-- LSL rP, rS, rT is ASL rP, rS, rT (`44_shift_rotate.md` R223). -/
def execLsl (r q t : Reg) (s : State) : Result State := execAsl r q t s

end Sys2Proof.Machine
end

