-- ==== Sys2Proof/Machine/Stack.lean ====
section
/-! DEFINITION. Pushes, pops, call and return (`47_stack_call.md`). -/

namespace Sys2Proof.Machine

/-- A push of `v` and the next instruction. -/
def pushAndGo (v : Word) (s : State) : Result State :=
  andThen (push v s) fun t => .next (t.advance 1)

/-- A pop; `merge` says what the popped item makes of the primary register. -/
def popInto (merge : Word → Word → Word) (r : Reg) (s : State) : Result State :=
  andThen (pop s) fun p => .next ((p.2.setReg r (merge (s.reg r) p.1)).advance 1)

/-- PSW (`47_stack_call.md` R281). -/
def execPsw (r : Reg) (s : State) : Result State := pushAndGo (s.reg r) s

/-- PSL: the low byte, zero-extended to a cell (`47_stack_call.md` R282). -/
def execPsl (r : Reg) (s : State) : Result State := pushAndGo (joinBytes 0 (lowByte (s.reg r))) s

/-- PSH: the high byte, moved to the low byte of the cell (`47_stack_call.md` R283). -/
def execPsh (r : Reg) (s : State) : Result State := pushAndGo (joinBytes 0 (highByte (s.reg r))) s

/-- PPW (`47_stack_call.md` R284). -/
def execPpw (r : Reg) (s : State) : Result State := popInto (fun _ v => v) r s

/-- PPL: the low byte of the cell goes to the low byte of the register (`47_stack_call.md` R285). -/
def execPpl (r : Reg) (s : State) : Result State := popInto mergeLow r s

/-- PPH: the low byte of the cell goes to the high byte of the register (`47_stack_call.md` R286). -/
def execPph (r : Reg) (s : State) : Result State := popInto mergeHigh r s

/-- CAL: pushes the address after its two words and jumps to the absolute target (`47_stack_call.md` R287). -/
def execCal (r q : Reg) (target : Word) (s : State) : Result State :=
  andThen (push (s.nextIp 2) (jumpCompare r q s)) fun t => .next (t.setIp target)

/-- RET: jumps to the popped item as it is (`47_stack_call.md` R288). -/
def execRet (r q : Reg) (s : State) : Result State :=
  andThen (pop (jumpCompare r q s)) fun p => .next (p.2.setIp p.1)

end Sys2Proof.Machine
end

