-- ==== Sys2Proof/Machine/Dispatch.lean ====
section
/-! DEFINITION. The meaning of every instruction, one arm per constructor. -/

namespace Sys2Proof.Machine

def exec (i : Instr) (s : State) : Host.Outcome State Fault Refusal :=
  match i with
  | .hlt => Sys2Proof.Machine.execHlt s
  | .nop => Sys2Proof.Machine.execNop s
  | .ldw m r w => Sys2Proof.Machine.execLdw m r w s
  | .stw m r w => Sys2Proof.Machine.execStw m r w s
  | .ldl m r w => Sys2Proof.Machine.execLdl m r w s
  | .stl m r w => Sys2Proof.Machine.execStl m r w s
  | .ldh m r w => Sys2Proof.Machine.execLdh m r w s
  | .sth m r w => Sys2Proof.Machine.execSth m r w s
  | .xch r q => Sys2Proof.Machine.execXch r q s
  | .xeq r q => Sys2Proof.Machine.execXeq r q s
  | .xne r q => Sys2Proof.Machine.execXne r q s
  | .xlt r q => Sys2Proof.Machine.execXlt r q s
  | .xgt r q => Sys2Proof.Machine.execXgt r q s
  | .xle r q => Sys2Proof.Machine.execXle r q s
  | .xge r q => Sys2Proof.Machine.execXge r q s
  | .xat r q => Sys2Proof.Machine.execXat r q s
  | .xbt r q => Sys2Proof.Machine.execXbt r q s
  | .xae r q => Sys2Proof.Machine.execXae r q s
  | .xbe r q => Sys2Proof.Machine.execXbe r q s
  | .xyz r q => Sys2Proof.Machine.execXyz r q s
  | .xnz r q => Sys2Proof.Machine.execXnz r q s
  | .xyc r q => Sys2Proof.Machine.execXyc r q s
  | .xnc r q => Sys2Proof.Machine.execXnc r q s
  | .xyo r q => Sys2Proof.Machine.execXyo r q s
  | .xno r q => Sys2Proof.Machine.execXno r q s
  | .xys r q => Sys2Proof.Machine.execXys r q s
  | .xns r q => Sys2Proof.Machine.execXns r q s
  | .xyp r q => Sys2Proof.Machine.execXyp r q s
  | .xnp r q => Sys2Proof.Machine.execXnp r q s
  | .add r q t => Sys2Proof.Machine.execAdd r q t s
  | .adc r q t => Sys2Proof.Machine.execAdc r q t s
  | .sub r q t => Sys2Proof.Machine.execSub r q t s
  | .sbb r q t => Sys2Proof.Machine.execSbb r q t s
  | .and r q t => Sys2Proof.Machine.execAnd r q t s
  | .orr r q t => Sys2Proof.Machine.execOrr r q t s
  | .xor r q t => Sys2Proof.Machine.execXor r q t s
  | .mul r q t => Sys2Proof.Machine.execMul r q t s
  | .div r q t => Sys2Proof.Machine.execDiv r q t s
  | .not r q => Sys2Proof.Machine.execNot r q s
  | .neg r q => Sys2Proof.Machine.execNeg r q s
  | .adi r q w => Sys2Proof.Machine.execAdi r q w s
  | .sbi r q w => Sys2Proof.Machine.execSbi r q w s
  | .aci r q w => Sys2Proof.Machine.execAci r q w s
  | .sib r q w => Sys2Proof.Machine.execSib r q w s
  | .ani r q w => Sys2Proof.Machine.execAni r q w s
  | .ori r q w => Sys2Proof.Machine.execOri r q w s
  | .xri r q w => Sys2Proof.Machine.execXri r q w s
  | .asl r q t => Sys2Proof.Machine.execAsl r q t s
  | .asr r q t => Sys2Proof.Machine.execAsr r q t s
  | .lsr r q t => Sys2Proof.Machine.execLsr r q t s
  | .rtl r q t => Sys2Proof.Machine.execRtl r q t s
  | .rtr r q t => Sys2Proof.Machine.execRtr r q t s
  | .rlc r q t => Sys2Proof.Machine.execRlc r q t s
  | .rrc r q t => Sys2Proof.Machine.execRrc r q t s
  | .cmp r q => Sys2Proof.Machine.execCmp r q s
  | .tst r q => Sys2Proof.Machine.execTst r q s
  | .flg r => Sys2Proof.Machine.execFlg r s
  | .flr r => Sys2Proof.Machine.execFlr r s
  | .jmp r q w => Sys2Proof.Machine.execJmp r q w s
  | .jeq r q w => Sys2Proof.Machine.execJeq r q w s
  | .jne r q w => Sys2Proof.Machine.execJne r q w s
  | .jlt r q w => Sys2Proof.Machine.execJlt r q w s
  | .jgt r q w => Sys2Proof.Machine.execJgt r q w s
  | .jle r q w => Sys2Proof.Machine.execJle r q w s
  | .jge r q w => Sys2Proof.Machine.execJge r q w s
  | .jat r q w => Sys2Proof.Machine.execJat r q w s
  | .jbt r q w => Sys2Proof.Machine.execJbt r q w s
  | .jae r q w => Sys2Proof.Machine.execJae r q w s
  | .jbe r q w => Sys2Proof.Machine.execJbe r q w s
  | .jyz r q w => Sys2Proof.Machine.execJyz r q w s
  | .jnz r q w => Sys2Proof.Machine.execJnz r q w s
  | .jyc r q w => Sys2Proof.Machine.execJyc r q w s
  | .jnc r q w => Sys2Proof.Machine.execJnc r q w s
  | .jyo r q w => Sys2Proof.Machine.execJyo r q w s
  | .jno r q w => Sys2Proof.Machine.execJno r q w s
  | .jys r q w => Sys2Proof.Machine.execJys r q w s
  | .jns r q w => Sys2Proof.Machine.execJns r q w s
  | .jyp r q w => Sys2Proof.Machine.execJyp r q w s
  | .jnp r q w => Sys2Proof.Machine.execJnp r q w s
  | .lop r q w => Sys2Proof.Machine.execLop r q w s
  | .psw r => Sys2Proof.Machine.execPsw r s
  | .psl r => Sys2Proof.Machine.execPsl r s
  | .psh r => Sys2Proof.Machine.execPsh r s
  | .ppw r => Sys2Proof.Machine.execPpw r s
  | .ppl r => Sys2Proof.Machine.execPpl r s
  | .pph r => Sys2Proof.Machine.execPph r s
  | .cal r q w => Sys2Proof.Machine.execCal r q w s
  | .ret r q => Sys2Proof.Machine.execRet r q s
  | .mov r q => Sys2Proof.Machine.execMov r q s
  | .mvi r w => Sys2Proof.Machine.execMvi r w s
  | .lsl r q t => Sys2Proof.Machine.execLsl r q t s

end Sys2Proof.Machine
end

