-- ==== Sys2Proof/Machine/Fetch.lean ====
section
/-! DEFINITION. Fetch and decode: the first part of `30_encoding.md` R104, in the order of `60_exceptions.md` R303. -/

namespace Sys2Proof.Machine

/-- The decoder's answer as an outcome (`30_encoding.md` R100, R101; log entry 13). -/
def decoded (x : Except Reject Instr) : Result Instr :=
  match x with
  | .ok i => .next i
  | .error .undefinedType => .refused .undefinedType
  | .error .unassignedOpcode => .refused .unassignedOpcode

/-- The instruction of the first word `w0` at IP: the second word is read for every two-word type, RET among them, and
for no other (`30_encoding.md` R80, R104). DESIGN CHOICE (log entry 23): where that second word holds no value the fetch
faults as unwrittenRead, whatever the opcode of the first word, a store in mode `i` among them; `60_exceptions.md` R303
does not say which cause is reported there. -/
def fetchRest (w0 : Word) (s : State) : Result Instr :=
  match lengthOf w0 with
  | some 2 => andThen (memRead .fetch (s.ip + 1) s) fun w1 => decoded (decode w0 w1)
  | some _ => decoded (decode w0 0)
  | none => .refused .undefinedType

/-- The instruction at IP (`30_encoding.md` R104). -/
def fetch (s : State) : Result Instr := andThen (memRead .fetch s.ip s) fun w0 => fetchRest w0 s

end Sys2Proof.Machine
end

