-- ==== Sys2Proof/Machine/Step.lean ====
section
/-! DEFINITION. One step of the machine (`30_encoding.md` R104). -/

namespace Sys2Proof.Machine

/-- One step: fetch, decode, execute. A halted machine takes no step (`10_state.md` R29); the model says so by
answering the same state (log entry 10). -/
def step (s : State) : Host.Outcome State Fault Refusal :=
  if s.halted then .next s else andThen (fetch s) fun i => exec i s

/-- `s` with the words of an opcode-table row where the next step fetches its instruction, both words of the longest
instruction written, and the machine running (log entry 11). -/
def State.withFetchWord (s : State) (nbits w : Nat) : State :=
  { (s.setCell s.ip (tableWords nbits w).1).setCell (s.ip + 1) (tableWords nbits w).2 with halted := false }

end Sys2Proof.Machine
end

