-- ==== Sys2Proof/Safety.lean ====
section
/-! DEFINITION. What claims speak about: the invariant of the state, runs, and which instructions the spec's summaries
name (`10_state.md` R24, R25, R27, `20_memory.md` R58). -/

namespace Sys2Proof.Machine

/-- Memory keeps its canonical form: keys strictly rising, each a lane of one of the 65536 cells, and every listed cell
listed whole (`20_memory.md` R50, R54, R55). -/
abbrev State.Inv (s : State) : Prop := Memory.wf s.mem = true

/-- A run of `n` steps that is not refused, does not fault and is not stuck (`60_exceptions.md` R300). -/
def RunsTo (n : Nat) (s t : State) : Prop := Host.Core.run core n s = .next t

/-- A finished run: it reaches the halted state (`70_reset_and_hazards.md` R336). -/
def Finishes (s t : State) : Prop := ∃ n, RunsTo n s t ∧ t.halted = true

/-- A safe machine: no run from here is refused, faults or is stuck (`60_exceptions.md` R300). -/
def SafeFrom (s : State) : Prop := ∀ n, ∃ t, RunsTo n s t

/-! ### What an instruction leaves as it was -/

/-- Every register reads as before. -/
def SameRegs (s t : State) : Prop := ∀ k : Reg, t.reg k = s.reg k

/-- Register `r` reads `v`, unless it is r0; every other register reads as before (`10_state.md` R21). -/
def OnlyReg (r : Reg) (v : Word) (s t : State) : Prop :=
  ∀ k : Reg, t.reg k = if k = r ∧ r ≠ .r0 then v else s.reg k

/-- Every byte of memory reads as before. -/
def SameBytes (s t : State) : Prop := ∀ k : Nat, t.lane k = s.lane k

/-- Cell `a` holds `v`; every byte outside its two reads as before. -/
def OnlyCell (a v : Word) (s t : State) : Prop :=
  t.cell a = some v ∧ ∀ k : Nat, k ≠ lowLane a → k ≠ highLane a → t.lane k = s.lane k

/-- SP, FL, `halted` and every byte of memory are as before. -/
def Quiet (s t : State) : Prop := t.sp = s.sp ∧ t.fl = s.fl ∧ t.halted = s.halted ∧ SameBytes s t

/-- What an arithmetic instruction of `len` words leaves: the result in `r`, the next instruction, and all but FL as it
was; FL is unspecified, so no clause constrains it (`43_arithmetic_logic.md` R190). -/
def AluEffect (r : Reg) (v len : Word) (s t : State) : Prop :=
  OnlyReg r v s t ∧ t.ip = s.ip + len ∧ t.sp = s.sp ∧ t.halted = s.halted ∧ SameBytes s t

/-- What a J-type instruction leaves of FL: the flags of `x[rrr] - x[sss]`, or FL as it was where both fields are 000
(`46_jump_loop.md` R250). -/
def comparedFlags (r q : Reg) (s : State) : Flags :=
  if r = .r0 ∧ q = .r0 then s.fl else flagsSub (s.reg r) (s.reg q)

end Sys2Proof.Machine

namespace Sys2Proof

/-- How many words an instruction has (`30_encoding.md` R80). -/
def Instr.size (i : Instr) : Word := if (encodeW1 i).isSome then 2 else 1

/-- The 25 instructions after which FL is unspecified, and the three pseudo-instructions that stand for one
(`43_arithmetic_logic.md` R190, `30_encoding.md` R106). -/
def Instr.leavesFlagsOpen (i : Instr) : Bool :=
  match i with
  | .add _ _ _ | .adc _ _ _ | .sub _ _ _ | .sbb _ _ _ | .and _ _ _ | .orr _ _ _ | .xor _ _ _ | .mul _ _ _
  | .div _ _ _ | .asl _ _ _ | .asr _ _ _ | .lsr _ _ _ | .rtl _ _ _ | .rtr _ _ _ | .rlc _ _ _ | .rrc _ _ _
  | .not _ _ | .neg _ _ | .adi _ _ _ | .sbi _ _ _ | .aci _ _ _ | .sib _ _ _ | .ani _ _ _ | .ori _ _ _
  | .xri _ _ _ | .mov _ _ | .mvi _ _ | .lsl _ _ _ => true
  | _ => false

/-- The instructions that leave FL as it is (`10_state.md` R27, last row, D7). -/
def Instr.keepsFlags (i : Instr) : Bool :=
  match i with
  | .hlt | .nop | .ldw _ _ _ | .stw _ _ _ | .ldl _ _ _ | .stl _ _ _ | .ldh _ _ _ | .sth _ _ _ | .xch _ _
  | .xeq _ _ | .xne _ _ | .xlt _ _ | .xgt _ _ | .xle _ _ | .xge _ _ | .xat _ _ | .xbt _ _ | .xae _ _ | .xbe _ _
  | .xyz _ _ | .xnz _ _ | .xyc _ _ | .xnc _ _ | .xyo _ _ | .xno _ _ | .xys _ _ | .xns _ _ | .xyp _ _ | .xnp _ _
  | .psw _ | .psl _ | .psh _ | .ppw _ | .ppl _ | .pph _ => true
  | _ => false

/-- The two register fields of a J-type instruction (`46_jump_loop.md` R250). -/
def Instr.compared (i : Instr) : Option (Reg × Reg) :=
  match i with
  | .jmp r q _ | .jeq r q _ | .jne r q _ | .jlt r q _ | .jgt r q _ | .jle r q _ | .jge r q _ | .jat r q _
  | .jbt r q _ | .jae r q _ | .jbe r q _ | .jyz r q _ | .jnz r q _ | .jyc r q _ | .jnc r q _ | .jyo r q _
  | .jno r q _ | .jys r q _ | .jns r q _ | .jyp r q _ | .jnp r q _ | .lop r q _ | .cal r q _ | .ret r q =>
    some (r, q)
  | _ => none

/-- The eight instructions that move SP, all by one cell (`10_state.md` R25, `47_stack_call.md` R280). -/
def Instr.movesSp (i : Instr) : Bool :=
  match i with
  | .psw _ | .psl _ | .psh _ | .ppw _ | .ppl _ | .pph _ | .cal _ _ _ | .ret _ _ => true
  | _ => false

/-- The instructions that write memory (`20_memory.md` R58, column writes). -/
def Instr.writesMemory (i : Instr) : Bool :=
  match i with
  | .stw _ _ _ | .stl _ _ _ | .sth _ _ _ | .psw _ | .psl _ | .psh _ | .cal _ _ _ => true
  | _ => false

end Sys2Proof
end

