-- ==== Sys2Proof/Certificates/Slice0/Obligations.lean ====
section
/-! DEFINITION. The statements for the provers. A statement that rests on a decision D1 to D38 of `92_eei_decisions.md`
names it and has basis 'derived'; log entries 13 to 21 gather those decisions, by number, as the model follows them. -/

open Sys2Proof Sys2Proof.Machine

/-! ### The shape shared by the statements of a family -/

/-- An R3-type arithmetic instruction: its word under R85 and R96, that it completes, and the value `f s a b` it gives
the primary register for the values `a`, `b` of the secondary and tertiary registers. -/
def Sys2Proof.Claims.R3Result (mk : Reg → Reg → Reg → Instr) (op : BitVec 4) (f : State → Word → Word → Word) : Prop :=
  ∀ (r q t : Reg) (w : Word) (s : State),
    decode (0b011#3 ++ op ++ t.code ++ q.code ++ r.code) w = .ok (mk r q t) ∧
    ∃ u, exec (mk r q t) s = .next u ∧ AluEffect r (f s (s.reg q) (s.reg t)) 1 s u

/-- An R2I-type instruction: its words under R88 and R99, that it completes, and the value `f s a w` it gives the
primary register for the value `a` of the secondary register and the immediate `w`. -/
def Sys2Proof.Claims.R2IResult (mk : Reg → Reg → Word → Instr) (op : BitVec 7) (f : State → Word → Word → Word) : Prop :=
  ∀ (r q : Reg) (w : Word) (s : State),
    decode (0b110#3 ++ op ++ q.code ++ r.code) w = .ok (mk r q w) ∧
    ∃ u, exec (mk r q w) s = .next u ∧ AluEffect r (f s (s.reg q) w) 2 s u

/-- An R2-type instruction of one source: its word under R84 and R95, that it completes, and its result. -/
def Sys2Proof.Claims.R2Result (mk : Reg → Reg → Instr) (op : BitVec 7) (f : Word → Word) : Prop :=
  ∀ (r q : Reg) (w : Word) (s : State),
    decode (0b010#3 ++ op ++ q.code ++ r.code) w = .ok (mk r q) ∧
    ∃ u, exec (mk r q) s = .next u ∧ AluEffect r (f (s.reg q)) 1 s u

/-- A conditional exchange: its word under R84 and R95, that it completes, that it copies the secondary register where
the condition holds of the standing flags and copies nothing where it does not, and that it keeps FL. -/
def Sys2Proof.Claims.ExchangeRule (mk : Reg → Reg → Instr) (op : BitVec 7) (c : Flags → Prop) : Prop :=
  ∀ (r q : Reg) (w : Word) (s : State),
    decode (0b010#3 ++ op ++ q.code ++ r.code) w = .ok (mk r q) ∧
    ∃ u, exec (mk r q) s = .next u ∧ (c s.fl → OnlyReg r (s.reg q) s u) ∧ (¬c s.fl → SameRegs s u) ∧
      u.ip = s.ip + 1 ∧ Quiet s u

/-- A conditional jump: its words under R87 and R98, that it completes, the flags its comparison leaves, and that it
goes to the target where the condition holds of those flags and to the next instruction where it does not. -/
def Sys2Proof.Claims.JumpRule (mk : Reg → Reg → Word → Instr) (op : BitVec 7) (c : Flags → Prop) : Prop :=
  ∀ (r q : Reg) (w : Word) (s : State),
    decode (0b101#3 ++ op ++ q.code ++ r.code) w = .ok (mk r q w) ∧
    ∃ u, exec (mk r q w) s = .next u ∧ u.fl = comparedFlags r q s ∧ (c u.fl → u.ip = w) ∧ (¬c u.fl → u.ip = s.ip + 2) ∧
      SameRegs s u ∧ u.sp = s.sp ∧ u.halted = s.halted ∧ SameBytes s u

/-- A jump that compares registers decides the relation `rel` of their values. -/
def Sys2Proof.Claims.JumpDecides (mk : Reg → Reg → Word → Instr) (rel : Word → Word → Prop) : Prop :=
  ∀ (r q : Reg) (w : Word) (s : State), ¬(r = .r0 ∧ q = .r0) →
    ∃ u, exec (mk r q w) s = .next u ∧ (rel (s.reg r) (s.reg q) → u.ip = w) ∧
      (¬rel (s.reg r) (s.reg q) → u.ip = s.ip + 2)

/-- Every access but the plain write of STW faults as an unwritten read: the loads read the datum, and the byte stores
the cell they merge into. -/
def Sys2Proof.Claims.DatumReadFaults (m : Mode) (r : Reg) (w : Word) (s : State) : Prop :=
  exec (.ldw m r w) s = .fault .unwrittenRead ∧ exec (.ldl m r w) s = .fault .unwrittenRead ∧
  exec (.ldh m r w) s = .fault .unwrittenRead ∧ exec (.stl m r w) s = .fault .unwrittenRead ∧
  exec (.sth m r w) s = .fault .unwrittenRead

/-- Every one of the six loads and stores faults as an unwritten read. -/
def Sys2Proof.Claims.AccessFaults (m : Mode) (r : Reg) (w : Word) (s : State) : Prop :=
  Claims.DatumReadFaults m r w s ∧ exec (.stw m r w) s = .fault .unwrittenRead

/-- An even number of 1 bits among all 16 (`45_compare_flags.md` R243, D10). -/
def Sys2Proof.Claims.EvenOnes (v : Word) : Prop := ((Finset.range 16).filter (fun k => v.getLsbD k = true)).card % 2 = 0

/-! ### Encoding -/

/-- Decode and encode agree on every instruction with every operand; a pseudo-instruction is read back as the core
instruction it stands for (`30_encoding.md` R82 to R99, R106). The second word is free where the instruction has none. -/
def Obligations.DecodeReadsBackEveryEncoding : Prop :=
  ∀ (i : Instr) (w : Word), decode (encodeW0 i) ((encodeW1 i).getD w) = .ok i.expand

/-- The other direction: an instruction the decoder reads is no pseudo-instruction, and its encoding is the words it was
read from, but for the unused low bits of an R0 word and the ignored second word of RET (`30_encoding.md` R102). -/
def Obligations.EncodeWritesBackEveryDecodedWord : Prop :=
  ∀ (w0 w1 : Word) (i : Instr), decode w0 w1 = .ok i →
    i.expand = i ∧
    encodeW0 i = (if typeField w0 = 0 then w0 &&& 0xFFF8 else w0) ∧
    (4 ≤ (typeField w0).toNat → (∀ r q, i ≠ .ret r q) → encodeW1 i = some w1) ∧
    ((typeField w0).toNat < 4 → encodeW1 i = none)

/-- One word of each type, written bit by bit from its format line, is read as the instruction it stands for
(`30_encoding.md` R93 to R99; the words of `95_test_vectors.md` 1.1 with the corrections of `90_conflicts.md`). -/
def Obligations.WrittenWordsDecodeAsTheyStand : Prop :=
  decode 0b0000000000001000 0 = .ok .nop ∧
  decode 0b0010000000010001 0 = .ok (.psw .r1) ∧
  decode 0b0100000011010001 0 = .ok (.xlt .r1 .r2) ∧
  decode 0b0110000011010001 0 = .ok (.add .r1 .r2 .r3) ∧
  decode 0b1000000000011001 2 = .ok (.ldw .rd .r1 2) ∧
  decode 0b1010000001010001 0x0040 = .ok (.jeq .r1 .r2 0x0040) ∧
  decode 0b1100000000010001 15 = .ok (.adi .r1 .r2 15)

/-- Which words have no meaning, by type and opcode number: the ranges of `30_encoding.md` R100 and R101 (their
treatment is decision D25). -/
def Obligations.DecoderRejectsExactlyTheUnassigned : Prop :=
  ∀ w0 w1 : Word,
    (decode w0 w1 = .error .undefinedType ↔ typeField w0 = 7) ∧
    (decode w0 w1 = .error .unassignedOpcode ↔
      (typeField w0 = 0 ∧ 2 ≤ (opcode10 w0).toNat) ∨ (typeField w0 = 1 ∧ 8 ≤ (opcode10 w0).toNat) ∨
      (typeField w0 = 2 ∧ 25 ≤ (opcode7 w0).toNat) ∨ (typeField w0 = 4 ∧ 3 ≤ (opcode5 w0).toNat) ∨
      (typeField w0 = 5 ∧ 24 ≤ (opcode7 w0).toNat) ∨ (typeField w0 = 6 ∧ 7 ≤ (opcode7 w0).toNat))

/-! ### The step -/

/-- A step runs the decoded instruction: the cell at IP, with the next cell for a two-word type, is decoded and
executed, and the step adds nothing around it (`30_encoding.md` R104, D4). -/
def Obligations.StepExecutesTheDecodedInstruction : Prop :=
  ∀ (s : State) (w0 w1 : Word) (i : Instr), s.halted = false → s.cell s.ip = some w0 →
    (lengthOf w0 = some 2 → s.cell (s.ip + 1) = some w1) → decode w0 w1 = .ok i → step s = exec i s

/-- A step whose words have no meaning is refused by the name of the cause: type 111 without a look at the second word,
an unassigned opcode after both words are fetched (`30_encoding.md` R100, R101, R104, D25). -/
def Obligations.StepRefusesWordsWithoutMeaning : Prop :=
  ∀ (s : State) (w0 w1 : Word), s.halted = false → s.cell s.ip = some w0 →
    (typeField w0 = 7 → step s = .refused .undefinedType) ∧
    ((lengthOf w0 = some 2 → s.cell (s.ip + 1) = some w1) → decode w0 w1 = .error .unassignedOpcode →
      step s = .refused .unassignedOpcode)

/-- Every way a step can stop is one of the causes listed for it, and MemoryNotAdmitted never happens
(`60_exceptions.md` R300, R302; `MemAdmit` true by D34). -/
def Obligations.StepStopsOnlyForListedCauses : Prop :=
  ∀ s : State,
    (∀ e, step s = .fault e → e = .divideByZero ∨ e = .unwrittenRead) ∧
    (∀ e, step s = .refused e → e = .undefinedType ∨ e = .unassignedOpcode ∨ e = .storeToImmediate ∨
      e = .reservedOperandBits ∨ e = .noRegisterBeforeR0)

/-- Every step keeps the canonical form of memory, from every state that has it, reached or not. -/
def Obligations.StepKeepsMemoryCanonical : Prop :=
  ∀ s t : State, s.Inv → step s = .next t → t.Inv

/-- The invariant holds right after reset. That reset lists no memory is the model's choice (log entry 11). -/
def Obligations.ResetMemoryIsCanonical : Prop := State.reset.Inv

/-- What reset leaves. The spec gives r0 zero, `halted` false (D26), IP and SP at `RESET_IP` and `RESET_SP`, which may be
any words, and 0x0000 as the value it takes for both (`70_reset_and_hazards.md` R330, R331; D30). The last clause, that
no cell holds a value before an image is loaded, is the MODEL's choice (log entries 7 and 11): R330 says only
"unspecified". The values of r1 to r7 and FL are the model's choice too (log entries 1 and 2), and no clause names them. -/
def Obligations.ResetLeavesTheSpecsValues : Prop :=
  State.reset = State.resetAt 0x0000 0x0000 ∧
  ∀ resetIp resetSp : Word,
    (State.resetAt resetIp resetSp).ip = resetIp ∧ (State.resetAt resetIp resetSp).sp = resetSp ∧
    (State.resetAt resetIp resetSp).reg .r0 = 0 ∧ (State.resetAt resetIp resetSp).halted = false ∧
    ∀ a : Word, (State.resetAt resetIp resetSp).cell a = none

/-! ### Program control -/

/-- HLT, with any low bits, completes, sets `halted`, leaves all else, IP among it, and the machine then stays where it
is (`40_program_control.md` R120, `10_state.md` R29, D26; that "no step" is a step to the same state is the model's
choice, log entry 10). -/
def Obligations.HltStopsAtItsOwnWord : Prop :=
  ∀ (x : BitVec 3) (w : Word) (s : State),
    decode (0b0000000000000#13 ++ x) w = .ok .hlt ∧
    ∃ u, exec .hlt s = .next u ∧ u.halted = true ∧ u.ip = s.ip ∧ u.sp = s.sp ∧ u.fl = s.fl ∧ SameRegs s u ∧
      SameBytes s u ∧ step u = .next u

/-- NOP, with any low bits, completes and only advances IP (`40_program_control.md` R121). -/
def Obligations.NopOnlyAdvances : Prop :=
  ∀ (x : BitVec 3) (w : Word) (s : State),
    decode (0b0000000000001#13 ++ x) w = .ok .nop ∧
    ∃ u, exec .nop s = .next u ∧ u.ip = s.ip + 1 ∧ SameRegs s u ∧ Quiet s u

/-! ### Registers -/

/-- r0 reads as zero, a write of it changes nothing, and an instruction that names it as its destination still has its
other effects, shown of a load, a pop and a MUL whose upper half goes to it (`10_state.md` R21, whose last sentence is
the spec's own derivation). -/
def Obligations.WritesOfR0AreDiscarded : Prop :=
  ∀ (s : State) (v a : Word) (q t : Reg),
    s.reg .r0 = 0 ∧ s.setReg .r0 v = s ∧
    (s.cell a = some v → exec (.ldw .id .r0 a) s = .next (s.setIp (s.ip + 2))) ∧
    (s.cell s.sp = some v → exec (.ppw .r0) s = .next ((s.setSp (s.sp + 1)).setIp (s.ip + 1))) ∧
    ∃ u, exec (.mul .r1 q t) s = .next u ∧
      AluEffect .r1 (BitVec.ofNat 16 ((s.reg q).toNat * (s.reg t).toNat)) 1 s u

/-! ### Address modes, loads and stores -/

/-- The sixteen modes: their codes, that mode `i` gives the operand itself, and the effective address of each of the
fifteen others in terms of the operand, r7, SP, the named register and the pointer cell (`41_load_store.md` R131). That
the register of `rd` and `rn` is the one whose number is the operand word is R132 with the spec's decision D23 (log
entry 14), and that sums are modulo 2^16 is `20_memory.md` R52 with D37 (log entry 17). -/
def Obligations.EffectiveAddressOfEveryMode : Prop :=
  ([Mode.i, .id, .in_, .rd, .rn, .xd, .xn, .xo, .xf, .sd, .sn, .so, .sxd, .sxn, .sxo, .sxf].map Mode.code =
    (List.range 16).map (BitVec.ofNat 4)) ∧
  ∀ (s : State) (w p : Word) (r : Reg),
    loadValue .i w s = .next w ∧
    effectiveAddress .id w s = .next w ∧
    (s.cell w = some p → effectiveAddress .in_ w s = .next p) ∧
    effectiveAddress .rd (0#13 ++ r.code) s = .next (s.reg r) ∧
    (s.cell (s.reg r) = some p → effectiveAddress .rn (0#13 ++ r.code) s = .next p) ∧
    effectiveAddress .xd w s = .next (BitVec.ofNat 16 ((s.reg .r7).toNat + w.toNat)) ∧
    (s.cell (BitVec.ofNat 16 ((s.reg .r7).toNat + w.toNat)) = some p → effectiveAddress .xn w s = .next p) ∧
    (s.cell (s.reg .r7) = some p → effectiveAddress .xo w s = .next (BitVec.ofNat 16 (p.toNat + w.toNat))) ∧
    (s.cell w = some p → effectiveAddress .xf w s = .next (BitVec.ofNat 16 (p.toNat + (s.reg .r7).toNat))) ∧
    effectiveAddress .sd w s = .next (BitVec.ofNat 16 (s.sp.toNat + w.toNat)) ∧
    (s.cell (BitVec.ofNat 16 (s.sp.toNat + w.toNat)) = some p → effectiveAddress .sn w s = .next p) ∧
    (s.cell s.sp = some p → effectiveAddress .so w s = .next (BitVec.ofNat 16 (p.toNat + w.toNat))) ∧
    effectiveAddress .sxd w s = .next (BitVec.ofNat 16 (s.sp.toNat + (s.reg .r7).toNat + w.toNat)) ∧
    (s.cell (BitVec.ofNat 16 (s.sp.toNat + (s.reg .r7).toNat + w.toNat)) = some p →
      effectiveAddress .sxn w s = .next p) ∧
    (s.cell (BitVec.ofNat 16 (s.sp.toNat + (s.reg .r7).toNat)) = some p →
      effectiveAddress .sxo w s = .next (BitVec.ofNat 16 (p.toNat + w.toNat))) ∧
    (s.cell (BitVec.ofNat 16 (s.sp.toNat + w.toNat)) = some p →
      effectiveAddress .sxf w s = .next (BitVec.ofNat 16 (p.toNat + (s.reg .r7).toNat)))

/-- LDW, LDL and LDH in mode `i`: the operand is the value; L and H take its low byte into the low or the high byte of
the primary register and keep the other (`41_load_store.md` R133, R136, R138, R139, R141; D7, D24). -/
def Obligations.ImmediateLoadsComplete : Prop :=
  ∀ (r : Reg) (w : Word) (s : State),
    (∃ u, exec (.ldw .i r w) s = .next u ∧ OnlyReg r w s u ∧ u.ip = s.ip + 2 ∧ Quiet s u) ∧
    (∃ u, exec (.ldl .i r w) s = .next u ∧
      OnlyReg r (BitVec.ofNat 16 ((s.reg r).toNat / 256 * 256 + w.toNat % 256)) s u ∧ u.ip = s.ip + 2 ∧ Quiet s u) ∧
    (∃ u, exec (.ldh .i r w) s = .next u ∧
      OnlyReg r (BitVec.ofNat 16 (w.toNat % 256 * 256 + (s.reg r).toNat % 256)) s u ∧ u.ip = s.ip + 2 ∧ Quiet s u)

/-- LDW, LDL and LDH in every other mode: where the effective address and the cell there are readable, the cell is the
value (`41_load_store.md` R133, R136, R138, R139, R141; D7, D24). -/
def Obligations.MemoryLoadsComplete : Prop :=
  ∀ (m : Mode) (r : Reg) (w a v : Word) (s : State), m ≠ .i → effectiveAddress m w s = .next a → s.cell a = some v →
    (∃ u, exec (.ldw m r w) s = .next u ∧ OnlyReg r v s u ∧ u.ip = s.ip + 2 ∧ Quiet s u) ∧
    (∃ u, exec (.ldl m r w) s = .next u ∧
      OnlyReg r (BitVec.ofNat 16 ((s.reg r).toNat / 256 * 256 + v.toNat % 256)) s u ∧ u.ip = s.ip + 2 ∧ Quiet s u) ∧
    (∃ u, exec (.ldh m r w) s = .next u ∧
      OnlyReg r (BitVec.ofNat 16 (v.toNat % 256 * 256 + (s.reg r).toNat % 256)) s u ∧ u.ip = s.ip + 2 ∧ Quiet s u)

/-- STW where the effective address is readable: the cell there holds the primary register, every other byte is as it
was (`41_load_store.md` R134, R137; D7). -/
def Obligations.WordStoreCompletes : Prop :=
  ∀ (m : Mode) (r : Reg) (w a : Word) (s : State), effectiveAddress m w s = .next a →
    ∃ u, exec (.stw m r w) s = .next u ∧ OnlyCell a (s.reg r) s u ∧ SameRegs s u ∧ u.ip = s.ip + 2 ∧ u.sp = s.sp ∧
      u.fl = s.fl ∧ u.halted = s.halted

/-- STL and STH where the effective address and the cell there are readable: the low byte of the primary register
replaces the low or the high byte of the cell, the other byte of the cell is kept, every other byte is as it was
(`20_memory.md` R55, `41_load_store.md` R138, R140, R142; D3, D7, D24). -/
def Obligations.ByteStoresMergeIntoTheCell : Prop :=
  ∀ (m : Mode) (r : Reg) (w a old : Word) (s : State), effectiveAddress m w s = .next a → s.cell a = some old →
    (∃ u, exec (.stl m r w) s = .next u ∧
      OnlyCell a (BitVec.ofNat 16 (old.toNat / 256 * 256 + (s.reg r).toNat % 256)) s u ∧ SameRegs s u ∧
      u.ip = s.ip + 2 ∧ u.sp = s.sp ∧ u.fl = s.fl ∧ u.halted = s.halted) ∧
    (∃ u, exec (.sth m r w) s = .next u ∧
      OnlyCell a (BitVec.ofNat 16 ((s.reg r).toNat % 256 * 256 + old.toNat % 256)) s u ∧ SameRegs s u ∧
      u.ip = s.ip + 2 ∧ u.sp = s.sp ∧ u.fl = s.fl ∧ u.halted = s.halted)

/-- A store in mode `i` is refused (`41_load_store.md` R134, D22), and a load or store in mode `rd` or `rn` whose operand
word is above 7 is refused (R132, D23), in every state. -/
def Obligations.AddressModeRefusals : Prop :=
  ∀ (r : Reg) (w : Word) (s : State),
    (exec (.stw .i r w) s = .refused .storeToImmediate ∧ exec (.stl .i r w) s = .refused .storeToImmediate ∧
      exec (.sth .i r w) s = .refused .storeToImmediate) ∧
    ∀ m : Mode, m = .rd ∨ m = .rn → 7 < w.toNat →
      exec (.ldw m r w) s = .refused .reservedOperandBits ∧ exec (.stw m r w) s = .refused .reservedOperandBits ∧
      exec (.ldl m r w) s = .refused .reservedOperandBits ∧ exec (.stl m r w) s = .refused .reservedOperandBits ∧
      exec (.ldh m r w) s = .refused .reservedOperandBits ∧ exec (.sth m r w) s = .refused .reservedOperandBits

/-- Reading a cell that nothing has loaded or stored faults, wherever the machine reads one: as the datum of a load or
the cell a byte store merges into, in every mode that has an effective address; as the pointer of each of the ten modes
that read one, for loads and stores alike; as the item of a pop or the return address; and as the first word of an
instruction, or the second of a two-word type (`70_reset_and_hazards.md` R332 (a), `60_exceptions.md` R302; that such a
read is a fault is the model's choice among those R332 offers, D35, log entry 7; that the second word faults even where
the opcode is unassigned or the operands are refused is the model's choice, log entry 23). -/
def Obligations.ReadingAnUnwrittenCellFaults : Prop :=
  ∀ (s : State) (w : Word) (r q : Reg),
    (∀ (m : Mode) (a : Word), effectiveAddress m w s = .next a → s.cell a = none → Claims.DatumReadFaults m r w s) ∧
    (s.cell w = none → Claims.AccessFaults .in_ r w s ∧ Claims.AccessFaults .xf r w s) ∧
    (s.cell (s.reg q) = none → Claims.AccessFaults .rn r (0#13 ++ q.code) s) ∧
    (s.cell (BitVec.ofNat 16 ((s.reg .r7).toNat + w.toNat)) = none → Claims.AccessFaults .xn r w s) ∧
    (s.cell (s.reg .r7) = none → Claims.AccessFaults .xo r w s) ∧
    (s.cell (BitVec.ofNat 16 (s.sp.toNat + w.toNat)) = none →
      Claims.AccessFaults .sn r w s ∧ Claims.AccessFaults .sxf r w s) ∧
    (s.cell s.sp = none → Claims.AccessFaults .so r w s) ∧
    (s.cell (BitVec.ofNat 16 (s.sp.toNat + (s.reg .r7).toNat + w.toNat)) = none → Claims.AccessFaults .sxn r w s) ∧
    (s.cell (BitVec.ofNat 16 (s.sp.toNat + (s.reg .r7).toNat)) = none → Claims.AccessFaults .sxo r w s) ∧
    (s.cell s.sp = none → exec (.ppw r) s = .fault .unwrittenRead ∧ exec (.ppl r) s = .fault .unwrittenRead ∧
      exec (.pph r) s = .fault .unwrittenRead ∧ exec (.ret r q) s = .fault .unwrittenRead) ∧
    (s.halted = false → s.cell s.ip = none → step s = .fault .unwrittenRead) ∧
    (∀ w0 : Word, s.halted = false → s.cell s.ip = some w0 → lengthOf w0 = some 2 → s.cell (s.ip + 1) = none →
      step s = .fault .unwrittenRead)

/-- A read returns the value of the latest write to the cell, and a write leaves every other cell alone
(`20_memory.md` R53, R54, R61; D31). -/
def Obligations.ReadReturnsTheLatestWrite : Prop :=
  ∀ (k : Access) (a b v : Word) (s : State),
    ∃ t, memWrite a v s = .next t ∧ memRead k a t = .next v ∧ (b ≠ a → memRead k b t = memRead k b s)

/-- A stored word is seen by the very next fetch: after a store to the cell the next instruction starts at, the step
runs the one-word instruction just stored (`20_memory.md` R64, D32). -/
def Obligations.StoredInstructionRunsNext : Prop :=
  ∀ (r : Reg) (s : State) (i : Instr), s.halted = false → lengthOf (s.reg r) = some 1 → decode (s.reg r) 0 = .ok i →
    ∃ u, exec (.stw .id r (s.ip + 2)) s = .next u ∧ step u = exec i u

/-! ### Exchanges -/

/-- XCH exchanges the two registers, both read before either is written; with r0 the other register becomes zero
(`42_move_exchange.md` R162; FL kept by D7). -/
def Obligations.XchSwapsTheRegisters : Prop :=
  ∀ (r q : Reg) (w : Word) (s : State),
    decode (0b010#3 ++ 0#7 ++ q.code ++ r.code) w = .ok (.xch r q) ∧
    ∃ u, exec (.xch r q) s = .next u ∧
      (∀ k : Reg, u.reg k = if k = .r0 then 0 else if k = r then s.reg q else if k = q then s.reg r else s.reg k) ∧
      u.ip = s.ip + 1 ∧ Quiet s u

/-- The conditional exchanges on equality and order: XEQ XNE XLT XLE XGE XAT XBT XAE XBE
(`42_move_exchange.md` R164 to R166, R168 to R173; a one-way copy by D38, FL kept by D7). -/
def Obligations.ExchangesOnOrderConditions : Prop :=
  Claims.ExchangeRule .xeq 1 (fun f => f.z = true) ∧
  Claims.ExchangeRule .xne 2 (fun f => f.z = false) ∧
  Claims.ExchangeRule .xlt 3 (fun f => f.s ≠ f.o) ∧
  Claims.ExchangeRule .xle 5 (fun f => f.z = true ∨ f.s ≠ f.o) ∧
  Claims.ExchangeRule .xge 6 (fun f => f.s = f.o) ∧
  Claims.ExchangeRule .xat 7 (fun f => f.c = false ∧ f.z = false) ∧
  Claims.ExchangeRule .xbt 8 (fun f => f.c = true) ∧
  Claims.ExchangeRule .xae 9 (fun f => f.c = false) ∧
  Claims.ExchangeRule .xbe 10 (fun f => f.c = true ∨ f.z = true)

/-- The conditional exchanges on one flag: XYZ XNZ XYC XNC XYO XNO XYS XNS XYP XNP
(`42_move_exchange.md` R174 to R183; D7, D38). -/
def Obligations.ExchangesOnOneFlag : Prop :=
  Claims.ExchangeRule .xyz 11 (fun f => f.z = true) ∧
  Claims.ExchangeRule .xnz 12 (fun f => f.z = false) ∧
  Claims.ExchangeRule .xyc 13 (fun f => f.c = true) ∧
  Claims.ExchangeRule .xnc 14 (fun f => f.c = false) ∧
  Claims.ExchangeRule .xyo 15 (fun f => f.o = true) ∧
  Claims.ExchangeRule .xno 16 (fun f => f.o = false) ∧
  Claims.ExchangeRule .xys 17 (fun f => f.s = true) ∧
  Claims.ExchangeRule .xns 18 (fun f => f.s = false) ∧
  Claims.ExchangeRule .xyp 19 (fun f => f.p = true) ∧
  Claims.ExchangeRule .xnp 20 (fun f => f.p = false)

/-- XGT and JGT share the condition that the spec chose where the source's two rows differ
(`42_move_exchange.md` R167, `46_jump_loop.md` R256; D12). -/
def Obligations.GreaterThanExchangeAndJump : Prop :=
  Claims.ExchangeRule .xgt 4 (fun f => f.z = false ∧ f.s = f.o) ∧
  Claims.JumpRule .jgt 4 (fun f => f.z = false ∧ f.s = f.o)

/-! ### Arithmetic and logic -/

/-- ADD, SUB, AND, ORR and XOR: the exact sum or difference modulo 2^16, or the operation bit by bit. FL is left
unspecified, so no clause constrains it. -/
def Obligations.AddSubAndLogicResults : Prop :=
  Claims.R3Result .add 0 (fun _ a b => BitVec.ofNat 16 (a.toNat + b.toNat)) ∧
  Claims.R3Result .sub 2 (fun _ a b => BitVec.ofInt 16 ((a.toNat : Int) - b.toNat)) ∧
  Claims.R3Result .and 4 (fun _ a b => a &&& b) ∧
  Claims.R3Result .orr 5 (fun _ a b => a ||| b) ∧
  Claims.R3Result .xor 6 (fun _ a b => a ^^^ b)

/-- ADC, SBB, ACI and SIB: the standing carry is added, or subtracted as a borrow, before FL becomes unspecified. -/
def Obligations.CarryArithmeticResults : Prop :=
  Claims.R3Result .adc 1 (fun s a b => BitVec.ofNat 16 (a.toNat + b.toNat + s.fl.c.toNat)) ∧
  Claims.R3Result .sbb 3 (fun s a b => BitVec.ofInt 16 ((a.toNat : Int) - b.toNat - s.fl.c.toNat)) ∧
  Claims.R2IResult .aci 2 (fun s a w => BitVec.ofNat 16 (a.toNat + w.toNat + s.fl.c.toNat)) ∧
  Claims.R2IResult .sib 3 (fun s a w => BitVec.ofInt 16 ((a.toNat : Int) - w.toNat - s.fl.c.toNat))

/-- NOT inverts all 16 bits; NEG is the negation modulo 2^16. -/
def Obligations.NotAndNegResults : Prop :=
  Claims.R2Result .not 21 (fun a => BitVec.ofNat 16 (65535 - a.toNat)) ∧
  Claims.R2Result .neg 22 (fun a => BitVec.ofInt 16 (-(a.toNat : Int)))

/-- ADI, SBI, ANI, ORI and XRI, with the whole second word as the immediate. -/
def Obligations.ImmediateResults : Prop :=
  Claims.R2IResult .adi 0 (fun _ a w => BitVec.ofNat 16 (a.toNat + w.toNat)) ∧
  Claims.R2IResult .sbi 1 (fun _ a w => BitVec.ofInt 16 ((a.toNat : Int) - w.toNat)) ∧
  Claims.R2IResult .ani 4 (fun _ a w => a &&& w) ∧
  Claims.R2IResult .ori 5 (fun _ a w => a ||| w) ∧
  Claims.R2IResult .xri 6 (fun _ a w => a ^^^ w)

/-- MUL, for every primary register but r0: the register before it and the primary register together hold the exact
unsigned product, with the upper half lost where the register before is r0 (`43_arithmetic_logic.md` R198; D17). -/
def Obligations.MulWritesTheProductPair : Prop :=
  ∀ (r h q t : Reg) (w : Word) (s : State), Reg.before r = some h →
    decode (0b011#3 ++ 7#4 ++ t.code ++ q.code ++ r.code) w = .ok (.mul r q t) ∧
    ∃ u hi lo, exec (.mul r q t) s = .next u ∧
      hi.toNat * 65536 + lo.toNat = (s.reg q).toNat * (s.reg t).toNat ∧
      (∀ k : Reg, u.reg k = if k = r then lo else if k = h ∧ h ≠ .r0 then (hi : Word) else s.reg k) ∧
      u.ip = s.ip + 1 ∧ u.sp = s.sp ∧ u.halted = s.halted ∧ SameBytes s u

/-- DIV where the divisor is not zero and the quotient fits 16 bits: quotient to the primary register, modulus to the
one before it (lost where that is r0), dividend the pair that ends in the secondary register
(`43_arithmetic_logic.md` R199; D17). -/
def Obligations.DivWritesQuotientAndModulus : Prop :=
  ∀ (r h q g t : Reg) (w : Word) (s : State), Reg.before r = some h → Reg.before q = some g → s.reg t ≠ 0 →
    (s.reg g).toNat * 65536 + (s.reg q).toNat < 65536 * (s.reg t).toNat →
    decode (0b011#3 ++ 8#4 ++ t.code ++ q.code ++ r.code) w = .ok (.div r q t) ∧
    ∃ u quot rem, exec (.div r q t) s = .next u ∧
      (s.reg g).toNat * 65536 + (s.reg q).toNat = (s.reg t).toNat * quot.toNat + rem.toNat ∧
      rem.toNat < (s.reg t).toNat ∧
      (∀ k : Reg, u.reg k = if k = r then quot else if k = h ∧ h ≠ .r0 then (rem : Word) else s.reg k) ∧
      u.ip = s.ip + 1 ∧ u.sp = s.sp ∧ u.halted = s.halted ∧ SameBytes s u

/-- DIV whose quotient needs more than 16 bits completes; only the two destination registers and FL are unspecified, so
no clause constrains them, and all else is as for a quotient that fits (`43_arithmetic_logic.md` R199; D18, log entry 5). -/
def Obligations.DivWithLargeQuotientCompletes : Prop :=
  ∀ (r h q g t : Reg) (s : State), Reg.before r = some h → Reg.before q = some g → s.reg t ≠ 0 →
    65536 * (s.reg t).toNat ≤ (s.reg g).toNat * 65536 + (s.reg q).toNat →
    ∃ u, exec (.div r q t) s = .next u ∧ (∀ k : Reg, k ≠ r → k ≠ h → u.reg k = s.reg k) ∧ u.reg .r0 = 0 ∧
      u.ip = s.ip + 1 ∧ u.sp = s.sp ∧ u.halted = s.halted ∧ SameBytes s u

/-- Exactly when MUL and DIV stop: refused where a register before r0 would be needed, and otherwise a fault of DIV
where the divisor is zero (`43_arithmetic_logic.md` R198, R199; D18, D19). -/
def Obligations.MulAndDivStopExactlyHere : Prop :=
  ∀ (r q t : Reg) (s : State),
    (exec (.mul r q t) s = .refused .noRegisterBeforeR0 ↔ r = .r0) ∧
    (exec (.div r q t) s = .refused .noRegisterBeforeR0 ↔ r = .r0 ∨ q = .r0) ∧
    (exec (.div r q t) s = .fault .divideByZero ↔ r ≠ .r0 ∧ q ≠ .r0 ∧ s.reg t = 0)

/-- The pseudo-instructions are, words and effects, the instructions they stand for, and give the result their rules
name (`30_encoding.md` R106, `42_move_exchange.md` R160, R161, `44_shift_rotate.md` R223). That LSL shifts by the whole
count is R220 and R221 with the spec's decision D20 (log entry 20), and that the three are constructors of their own is
the model's choice (log entry 12). -/
def Obligations.PseudoInstructionsAreTheirExpansions : Prop :=
  ∀ (r q t : Reg) (w : Word) (s : State),
    (encode (.mov r q) = encode (.add r q .r0) ∧ exec (.mov r q) s = exec (.add r q .r0) s ∧
      ∃ u, exec (.mov r q) s = .next u ∧ AluEffect r (s.reg q) 1 s u) ∧
    (encode (.mvi r w) = encode (.adi r .r0 w) ∧ exec (.mvi r w) s = exec (.adi r .r0 w) s ∧
      ∃ u, exec (.mvi r w) s = .next u ∧ AluEffect r w 2 s u) ∧
    (encode (.lsl r q t) = encode (.asl r q t) ∧ exec (.lsl r q t) s = exec (.asl r q t) s ∧
      ∃ u, exec (.lsl r q t) s = .next u ∧
        AluEffect r (BitVec.ofNat 16 ((s.reg q).toNat * 2 ^ (s.reg t).toNat)) 1 s u)

/-! ### Shifts and rotates -/

/-- ASL by the whole count is a multiplication by 2^n modulo 2^16, so 16 or more gives 0; RTL and RTR move bit j to
bit j + n or j - n modulo 16 (`44_shift_rotate.md` R220, R221, R225, R226; the whole count by D20). -/
def Obligations.AslAndRotateResults : Prop :=
  Claims.R3Result .asl 9 (fun _ a n => BitVec.ofNat 16 (a.toNat * 2 ^ n.toNat)) ∧
  Claims.R3Result .rtl 12 (fun _ a n => BitVec.ofFnLE fun j : Fin 16 => a.getLsbD ((j.val + 16 - n.toNat % 16) % 16)) ∧
  Claims.R3Result .rtr 13 (fun _ a n => BitVec.ofFnLE fun j : Fin 16 => a.getLsbD ((j.val + n.toNat) % 16))

/-- ASR copies the sign bit in from the left, LSR zeros, by the whole count (`44_shift_rotate.md` R222, R224; D20, and
that "Arith." copies the sign is marked as general knowledge there). -/
def Obligations.RightShiftResults : Prop :=
  Claims.R3Result .asr 10 (fun _ a n => BitVec.ofFnLE fun j : Fin 16 => a.getLsbD (min (j.val + n.toNat) 15)) ∧
  Claims.R3Result .lsr 11 (fun _ a n => BitVec.ofNat 16 (a.toNat / 2 ^ n.toNat))

/-- RLC and RRC rotate the 17-bit ring of carry and register, the carry on the left or on the right, and give the 16
bits that stand where the register stood (`44_shift_rotate.md` R227, R228; D20, D21). In the ring of RLC the register
is bits 0 to 15 and the carry bit 16; in that of RRC the carry is bit 0 and the register bits 1 to 16. -/
def Obligations.RotateThroughCarryResults : Prop :=
  Claims.R3Result .rlc 14 (fun s a n => BitVec.ofFnLE fun j : Fin 16 =>
    if (j.val + 17 - n.toNat % 17) % 17 = 16 then s.fl.c else a.getLsbD ((j.val + 17 - n.toNat % 17) % 17)) ∧
  Claims.R3Result .rrc 15 (fun s a n => BitVec.ofFnLE fun j : Fin 16 =>
    if (j.val + 1 + n.toNat) % 17 = 0 then s.fl.c else a.getLsbD ((j.val + 1 + n.toNat) % 17 - 1))

/-- A shift or rotate by n places is n shifts or rotates by one place (`44_shift_rotate.md` R220, D20). -/
def Obligations.ShiftByCountIsRepeatedShiftByOne : Prop :=
  ∀ (v : Word) (n : Nat),
    shiftLeft v n = (fun x => shiftLeft x 1)^[n] v ∧
    shiftRightArith v n = (fun x => shiftRightArith x 1)^[n] v ∧
    shiftRightLogic v n = (fun x => shiftRightLogic x 1)^[n] v ∧
    rotLeft v n = (fun x => rotLeft x 1)^[n] v ∧
    rotRight v n = (fun x => rotRight x 1)^[n] v

/-! ### Compare and flags -/

/-- CMP completes and leaves the five flags of the subtraction, said in integers: C where the unsigned difference is
negative, O where the signed difference is out of range; it changes nothing else (`45_compare_flags.md` R242, R244;
D8, D10). -/
def Obligations.CmpLeavesTheSubtractionFlags : Prop :=
  ∀ (r q : Reg) (w : Word) (s : State),
    decode (0b010#3 ++ 23#7 ++ q.code ++ r.code) w = .ok (.cmp r q) ∧
    ∃ u, exec (.cmp r q) s = .next u ∧
      (u.fl.z = true ↔ s.reg r = s.reg q) ∧
      (u.fl.s = true ↔ 32768 ≤ (BitVec.ofInt 16 (((s.reg r).toNat : Int) - (s.reg q).toNat)).toNat) ∧
      (u.fl.c = true ↔ ((s.reg r).toNat : Int) - (s.reg q).toNat < 0) ∧
      (u.fl.o = true ↔ ¬(-32768 ≤ (s.reg r).toInt - (s.reg q).toInt ∧ (s.reg r).toInt - (s.reg q).toInt ≤ 32767)) ∧
      (u.fl.p = true ↔ Claims.EvenOnes (BitVec.ofInt 16 (((s.reg r).toNat : Int) - (s.reg q).toNat))) ∧
      SameRegs s u ∧ u.ip = s.ip + 1 ∧ u.sp = s.sp ∧ u.halted = s.halted ∧ SameBytes s u

/-- TST and FLR complete and leave Z, S and P of the AND or of the register, with C and O cleared; they change nothing
else (`45_compare_flags.md` R243, R245, R247; D9, D10). -/
def Obligations.TstAndFlrLeaveTheValueFlags : Prop :=
  ∀ (r q : Reg) (w : Word) (s : State),
    decode (0b010#3 ++ 24#7 ++ q.code ++ r.code) w = .ok (.tst r q) ∧
    decode (0b001#3 ++ 1#10 ++ r.code) w = .ok (.flr r) ∧
    (∃ u, exec (.tst r q) s = .next u ∧
      (u.fl.z = true ↔ ∀ k < 16, ¬((s.reg r).getLsbD k = true ∧ (s.reg q).getLsbD k = true)) ∧
      (u.fl.s = true ↔ 32768 ≤ (s.reg r).toNat ∧ 32768 ≤ (s.reg q).toNat) ∧
      u.fl.c = false ∧ u.fl.o = false ∧ (u.fl.p = true ↔ Claims.EvenOnes (s.reg r &&& s.reg q)) ∧
      SameRegs s u ∧ u.ip = s.ip + 1 ∧ u.sp = s.sp ∧ u.halted = s.halted ∧ SameBytes s u) ∧
    (∃ u, exec (.flr r) s = .next u ∧
      (u.fl.z = true ↔ (s.reg r).toNat = 0) ∧ (u.fl.s = true ↔ 32768 ≤ (s.reg r).toNat) ∧
      u.fl.c = false ∧ u.fl.o = false ∧ (u.fl.p = true ↔ Claims.EvenOnes (s.reg r)) ∧
      SameRegs s u ∧ u.ip = s.ip + 1 ∧ u.sp = s.sp ∧ u.halted = s.halted ∧ SameBytes s u)

/-- FLG completes and takes Z, C, O, S, P from bits 0 to 4 of the register, the layout the spec chose; bits 15:5 do not
matter, and it changes nothing else (`45_compare_flags.md` R246; D11). -/
def Obligations.FlgCopiesFiveBits : Prop :=
  ∀ (r : Reg) (w : Word) (s : State),
    decode (0b001#3 ++ 0#10 ++ r.code) w = .ok (.flg r) ∧
    ∃ u, exec (.flg r) s = .next u ∧
      u.fl.z.toNat + 2 * u.fl.c.toNat + 4 * u.fl.o.toNat + 8 * u.fl.s.toNat + 16 * u.fl.p.toNat = (s.reg r).toNat % 32 ∧
      SameRegs s u ∧ u.ip = s.ip + 1 ∧ u.sp = s.sp ∧ u.halted = s.halted ∧ SameBytes s u

/-! ### Jumps -/

/-- JMP completes and goes to its target; it too compares where a register field is not 000 (`46_jump_loop.md` R250 to
R252; D5, D8, D15). -/
def Obligations.JmpGoesToItsTarget : Prop := Claims.JumpRule .jmp 0 (fun _ => True)

/-- The conditional jumps on equality and order: JEQ JNE JLT JLE JGE JAT JBT JAE JBE
(`46_jump_loop.md` R250, R251, R253 to R255, R257 to R262; absolute target by D5, flags by D8). -/
def Obligations.JumpsOnOrderConditions : Prop :=
  Claims.JumpRule .jeq 1 (fun f => f.z = true) ∧
  Claims.JumpRule .jne 2 (fun f => f.z = false) ∧
  Claims.JumpRule .jlt 3 (fun f => f.s ≠ f.o) ∧
  Claims.JumpRule .jle 5 (fun f => f.z = true ∨ f.s ≠ f.o) ∧
  Claims.JumpRule .jge 6 (fun f => f.s = f.o) ∧
  Claims.JumpRule .jat 7 (fun f => f.c = false ∧ f.z = false) ∧
  Claims.JumpRule .jbt 8 (fun f => f.c = true) ∧
  Claims.JumpRule .jae 9 (fun f => f.c = false) ∧
  Claims.JumpRule .jbe 10 (fun f => f.c = true ∨ f.z = true)

/-- The conditional jumps on one flag: JYZ JNZ JYC JNC JYO JNO JYS JNS JYP JNP
(`46_jump_loop.md` R250, R251, R263 to R272; D5, D8). -/
def Obligations.JumpsOnOneFlag : Prop :=
  Claims.JumpRule .jyz 11 (fun f => f.z = true) ∧
  Claims.JumpRule .jnz 12 (fun f => f.z = false) ∧
  Claims.JumpRule .jyc 13 (fun f => f.c = true) ∧
  Claims.JumpRule .jnc 14 (fun f => f.c = false) ∧
  Claims.JumpRule .jyo 15 (fun f => f.o = true) ∧
  Claims.JumpRule .jno 16 (fun f => f.o = false) ∧
  Claims.JumpRule .jys 17 (fun f => f.s = true) ∧
  Claims.JumpRule .jns 18 (fun f => f.s = false) ∧
  Claims.JumpRule .jyp 19 (fun f => f.p = true) ∧
  Claims.JumpRule .jnp 20 (fun f => f.p = false)

/-- A jump that compares registers decides what its name says: Less and Greater as signed numbers, Above and Below as
unsigned ones (`45_compare_flags.md` R241, R242: the consequence the rule states of D8 and D12). -/
def Obligations.ComparingJumpsDecideTheNamedOrder : Prop :=
  Claims.JumpDecides .jeq (fun a b => a = b) ∧
  Claims.JumpDecides .jne (fun a b => a ≠ b) ∧
  Claims.JumpDecides .jlt (fun a b => a.toInt < b.toInt) ∧
  Claims.JumpDecides .jgt (fun a b => a.toInt > b.toInt) ∧
  Claims.JumpDecides .jle (fun a b => a.toInt ≤ b.toInt) ∧
  Claims.JumpDecides .jge (fun a b => a.toInt ≥ b.toInt) ∧
  Claims.JumpDecides .jat (fun a b => a.toNat > b.toNat) ∧
  Claims.JumpDecides .jbt (fun a b => a.toNat < b.toNat) ∧
  Claims.JumpDecides .jae (fun a b => a.toNat ≥ b.toNat) ∧
  Claims.JumpDecides .jbe (fun a b => a.toNat ≤ b.toNat)

/-- LOP completes: it compares, tests Z, and decrements the primary register whether or not it jumps, without another
write of FL; with the secondary field 000 it jumps exactly where the register was not zero, and with both fields 000 on
the standing Z (`46_jump_loop.md` R273; D16). -/
def Obligations.LopTestsThenDecrements : Prop :=
  ∀ (r q : Reg) (w : Word) (s : State),
    decode (0b101#3 ++ 21#7 ++ q.code ++ r.code) w = .ok (.lop r q w) ∧
    ∃ u, exec (.lop r q w) s = .next u ∧ u.fl = comparedFlags r q s ∧
      OnlyReg r (BitVec.ofInt 16 (((s.reg r).toNat : Int) - 1)) s u ∧
      (u.fl.z = false → u.ip = w) ∧ (u.fl.z = true → u.ip = s.ip + 2) ∧
      (r ≠ .r0 → q = .r0 → (u.fl.z = true ↔ s.reg r = 0)) ∧
      u.sp = s.sp ∧ u.halted = s.halted ∧ SameBytes s u

/-! ### Stack, call and return -/

/-- PSW, PSL and PSH always complete: SP goes one cell down, the cell it then names holds the word or the byte
zero-extended, every other byte is as it was, and nothing else changes (`47_stack_call.md` R280 to R283; D7, D13, D14). -/
def Obligations.PushesStoreBelowTheStack : Prop :=
  ∀ (r : Reg) (s : State),
    (∃ u, exec (.psw r) s = .next u ∧ OnlyCell (s.sp - 1) (s.reg r) s u ∧ u.sp = s.sp - 1 ∧ SameRegs s u ∧
      u.ip = s.ip + 1 ∧ u.fl = s.fl ∧ u.halted = s.halted) ∧
    (∃ u, exec (.psl r) s = .next u ∧ OnlyCell (s.sp - 1) (BitVec.ofNat 16 ((s.reg r).toNat % 256)) s u ∧
      u.sp = s.sp - 1 ∧ SameRegs s u ∧ u.ip = s.ip + 1 ∧ u.fl = s.fl ∧ u.halted = s.halted) ∧
    (∃ u, exec (.psh r) s = .next u ∧ OnlyCell (s.sp - 1) (BitVec.ofNat 16 ((s.reg r).toNat / 256)) s u ∧
      u.sp = s.sp - 1 ∧ SameRegs s u ∧ u.ip = s.ip + 1 ∧ u.fl = s.fl ∧ u.halted = s.halted)

/-- PPW, PPL and PPH complete where the cell at SP is readable: the whole item, or its low byte into one byte of the
register, and SP one cell up; memory and FL keep their values (`47_stack_call.md` R280, R284 to R286; D13, D14). -/
def Obligations.PopsLoadFromTheStack : Prop :=
  ∀ (r : Reg) (v : Word) (s : State), s.cell s.sp = some v →
    (∃ u, exec (.ppw r) s = .next u ∧ OnlyReg r v s u ∧ u.sp = s.sp + 1 ∧ u.ip = s.ip + 1 ∧ u.fl = s.fl ∧
      u.halted = s.halted ∧ SameBytes s u) ∧
    (∃ u, exec (.ppl r) s = .next u ∧
      OnlyReg r (BitVec.ofNat 16 ((s.reg r).toNat / 256 * 256 + v.toNat % 256)) s u ∧ u.sp = s.sp + 1 ∧
      u.ip = s.ip + 1 ∧ u.fl = s.fl ∧ u.halted = s.halted ∧ SameBytes s u) ∧
    (∃ u, exec (.pph r) s = .next u ∧
      OnlyReg r (BitVec.ofNat 16 (v.toNat % 256 * 256 + (s.reg r).toNat % 256)) s u ∧ u.sp = s.sp + 1 ∧
      u.ip = s.ip + 1 ∧ u.fl = s.fl ∧ u.halted = s.halted ∧ SameBytes s u)

/-- What is pushed is what is popped: PSW then PPW moves a register's value to any register and restores SP, and PSH
then PPH leaves the register as it was (`47_stack_call.md` R280, R283, R286; D13, D14). -/
def Obligations.PopRestoresWhatPushSaved : Prop :=
  ∀ (r q : Reg) (s : State),
    (∃ u t, exec (.psw r) s = .next u ∧ exec (.ppw q) u = .next t ∧ OnlyReg q (s.reg r) s t ∧ t.sp = s.sp) ∧
    (∃ u t, exec (.psh r) s = .next u ∧ exec (.pph r) u = .next t ∧ SameRegs s t ∧ t.sp = s.sp)

/-- CAL always completes: the address after its two words is pushed and IP is the absolute target; RET completes where
the cell at SP is readable, and IP is that item whatever its second word; both follow the J-type flag rule
(`47_stack_call.md` R287, R288; D5, D13, D15). -/
def Obligations.CalPushesAndRetPopsIp : Prop :=
  ∀ (r q : Reg) (w v : Word) (s : State),
    decode (0b101#3 ++ 22#7 ++ q.code ++ r.code) w = .ok (.cal r q w) ∧
    decode (0b101#3 ++ 23#7 ++ q.code ++ r.code) w = .ok (.ret r q) ∧
    (∃ u, exec (.cal r q w) s = .next u ∧ OnlyCell (s.sp - 1) (s.ip + 2) s u ∧ u.sp = s.sp - 1 ∧ u.ip = w ∧
      u.fl = comparedFlags r q s ∧ SameRegs s u ∧ u.halted = s.halted) ∧
    (s.cell s.sp = some v → ∃ u, exec (.ret r q) s = .next u ∧ u.ip = v ∧ u.sp = s.sp + 1 ∧
      u.fl = comparedFlags r q s ∧ SameRegs s u ∧ u.halted = s.halted ∧ SameBytes s u)

/-- RET undoes CAL, whatever the register fields of either: executed where the called procedure starts, it comes back to
the instruction after the CAL with SP and the registers as they were and the flags of its own comparison after the
CAL's; where all four fields are r0, the assembler's forms, FL is as it was (`47_stack_call.md` R287 to R289;
D13, D15). -/
def Obligations.RetReturnsBehindTheCal : Prop :=
  ∀ (r q r' q' : Reg) (w : Word) (s : State), ∃ u t,
    exec (.cal r q w) s = .next u ∧ exec (.ret r' q') u = .next t ∧
    t.ip = s.ip + 2 ∧ t.sp = s.sp ∧ SameRegs s t ∧ u.fl = comparedFlags r q s ∧ t.fl = comparedFlags r' q' u ∧
    (r = .r0 → q = .r0 → r' = .r0 → q' = .r0 → t.fl = s.fl)

/-! ### Whole-machine rules -/

/-- An instruction is refused exactly where its operand combination has no meaning, whatever the state; it faults only
for a zero divisor or an unwritten cell (`60_exceptions.md` R302, R303; D18, D19, D22, D23). -/
def Obligations.RefusedExactlyIfIllFormed : Prop :=
  ∀ (i : Instr) (s : State),
    ((∃ e, exec i s = .refused e) ↔ i.wellFormed = false) ∧
    (∀ e, exec i s = .fault e → e = .divideByZero ∨ e = .unwrittenRead)

/-- Every instruction but HLT and the 24 J-type ones ends with IP at the next instruction
(`00_scope.md` R11, `10_state.md` R24; D4). -/
def Obligations.OnlyJumpsLeaveTheSequence : Prop :=
  ∀ (i : Instr) (s t : State), exec i s = .next t → i ≠ .hlt → i.compared = none → t.ip = s.ip + i.size

/-- The data movement, stack and control instructions keep FL (`10_state.md` R27, last row; D7). -/
def Obligations.DataMovementKeepsFlags : Prop :=
  ∀ (i : Instr) (s t : State), exec i s = .next t → i.keepsFlags = true → t.fl = s.fl

/-- Every J-type instruction, JMP, LOP, CAL and RET among them, leaves the flags of its comparison, or FL as it was
where both register fields are 000 (`46_jump_loop.md` R250; D15). -/
def Obligations.EveryJumpFollowsTheFlagRule : Prop :=
  ∀ (i : Instr) (r q : Reg) (s t : State), exec i s = .next t → i.compared = some (r, q) → t.fl = comparedFlags r q s

/-- After an arithmetic, logic, shift or rotate instruction FL is the model's fresh free value, whatever that is, and no
other instruction but a DIV of that set draws one (`43_arithmetic_logic.md` R190; D6, log entries 4 to 6). -/
def Obligations.OpenFlagsAreAFreshDraw : Prop :=
  ∀ (i : Instr) (s t : State), exec i s = .next t →
    (i.leavesFlagsOpen = true → t.fl = flagsOfBits (Config.freeFlags s.draws) ∧ t.draws = s.draws + 1) ∧
    (i.leavesFlagsOpen = false → t.draws = s.draws)

/-- SP is moved by the eight stack instructions, by one cell, and by no other (`10_state.md` R25, `47_stack_call.md`
R280; D13, D14). -/
def Obligations.OnlyStackInstructionsMoveSp : Prop :=
  ∀ (i : Instr) (s t : State), exec i s = .next t →
    (i.movesSp = false → t.sp = s.sp) ∧
    (i.movesSp = true → t.sp = if i.writesMemory then s.sp - 1 else s.sp + 1)

/-- Every byte of memory survives every instruction but the stores, the pushes and CAL (`20_memory.md` R58; D31). -/
def Obligations.OnlyStoresChangeMemory : Prop :=
  ∀ (i : Instr) (s t : State), exec i s = .next t → i.writesMemory = false → SameBytes s t

/-- HLT and nothing else sets `halted`, and no instruction clears it (`10_state.md` R29; D26). -/
def Obligations.OnlyHltHalts : Prop :=
  ∀ (i : Instr) (s t : State), exec i s = .next t → (t.halted = true ↔ s.halted = true ∨ i = .hlt)
end

