-- ==== Sys2Proof/Laws/State.lean ====
section
/-! SUPPORT. The small lemmas of the state: one per field per update, true by unfolding, so that no proof unfolds a
record update; and what a register reads as after a write. -/

namespace Sys2Proof.Machine

variable (s : State)

@[simp] theorem State.reg_r0 : s.reg .r0 = 0 := rfl

theorem State.r7_eq_reg : s.r7 = s.reg .r7 := rfl

@[simp] theorem State.setReg_r0 (v : Word) : s.setReg .r0 v = s := rfl

/-- A register reads as written, but for r0, and no write reaches another register. -/
theorem State.reg_setReg (r q : Reg) (v : Word) :
    (s.setReg r v).reg q = if q = r ∧ r ≠ .r0 then v else s.reg q := by
  cases r <;> cases q <;> rfl

theorem State.reg_setReg_ne (r q : Reg) (v : Word) (h : q ≠ r) : (s.setReg r v).reg q = s.reg q := by
  simp [State.reg_setReg, h]

@[simp] theorem State.setReg_ip (r : Reg) (v : Word) : (s.setReg r v).ip = s.ip := by cases r <;> rfl
@[simp] theorem State.setReg_sp (r : Reg) (v : Word) : (s.setReg r v).sp = s.sp := by cases r <;> rfl
@[simp] theorem State.setReg_fl (r : Reg) (v : Word) : (s.setReg r v).fl = s.fl := by cases r <;> rfl
@[simp] theorem State.setReg_mem (r : Reg) (v : Word) : (s.setReg r v).mem = s.mem := by cases r <;> rfl
@[simp] theorem State.setReg_halted (r : Reg) (v : Word) : (s.setReg r v).halted = s.halted := by cases r <;> rfl
@[simp] theorem State.setReg_draws (r : Reg) (v : Word) : (s.setReg r v).draws = s.draws := by cases r <;> rfl
@[simp] theorem State.setReg_cell (r : Reg) (v : Word) (k : Word) : (s.setReg r v).cell k = s.cell k := by simp [State.cell]
@[simp] theorem State.setReg_lane (r : Reg) (v : Word) (k : Nat) : (s.setReg r v).lane k = s.lane k := by simp [State.lane]

/-! Reset, for any start address and any initial stack pointer (`70_reset_and_hazards.md` R330, R331). -/

@[simp] theorem State.resetAt_ip (i p : Word) : (State.resetAt i p).ip = i := rfl
@[simp] theorem State.resetAt_sp (i p : Word) : (State.resetAt i p).sp = p := rfl
@[simp] theorem State.resetAt_halted (i p : Word) : (State.resetAt i p).halted = false := rfl
@[simp] theorem State.resetAt_mem (i p : Word) : (State.resetAt i p).mem = [] := rfl
@[simp] theorem State.resetAt_cell (i p a : Word) : (State.resetAt i p).cell a = none := rfl

@[simp] theorem State.setIp_ip (v : Word) : (s.setIp v).ip = v := rfl
@[simp] theorem State.setIp_sp (v : Word) : (s.setIp v).sp = s.sp := rfl
@[simp] theorem State.setIp_fl (v : Word) : (s.setIp v).fl = s.fl := rfl
@[simp] theorem State.setIp_mem (v : Word) : (s.setIp v).mem = s.mem := rfl
@[simp] theorem State.setIp_halted (v : Word) : (s.setIp v).halted = s.halted := rfl
@[simp] theorem State.setIp_draws (v : Word) : (s.setIp v).draws = s.draws := rfl
@[simp] theorem State.setIp_reg (v : Word) (q : Reg) : (s.setIp v).reg q = s.reg q := by cases q <;> rfl
@[simp] theorem State.setIp_cell (v : Word) (k : Word) : (s.setIp v).cell k = s.cell k := by simp [State.cell]
@[simp] theorem State.setIp_lane (v : Word) (k : Nat) : (s.setIp v).lane k = s.lane k := by simp [State.lane]

@[simp] theorem State.setSp_ip (v : Word) : (s.setSp v).ip = s.ip := rfl
@[simp] theorem State.setSp_sp (v : Word) : (s.setSp v).sp = v := rfl
@[simp] theorem State.setSp_fl (v : Word) : (s.setSp v).fl = s.fl := rfl
@[simp] theorem State.setSp_mem (v : Word) : (s.setSp v).mem = s.mem := rfl
@[simp] theorem State.setSp_halted (v : Word) : (s.setSp v).halted = s.halted := rfl
@[simp] theorem State.setSp_draws (v : Word) : (s.setSp v).draws = s.draws := rfl
@[simp] theorem State.setSp_reg (v : Word) (q : Reg) : (s.setSp v).reg q = s.reg q := by cases q <;> rfl
@[simp] theorem State.setSp_cell (v : Word) (k : Word) : (s.setSp v).cell k = s.cell k := by simp [State.cell]
@[simp] theorem State.setSp_lane (v : Word) (k : Nat) : (s.setSp v).lane k = s.lane k := by simp [State.lane]

@[simp] theorem State.setFlags_ip (f : Flags) : (s.setFlags f).ip = s.ip := rfl
@[simp] theorem State.setFlags_sp (f : Flags) : (s.setFlags f).sp = s.sp := rfl
@[simp] theorem State.setFlags_fl (f : Flags) : (s.setFlags f).fl = f := rfl
@[simp] theorem State.setFlags_mem (f : Flags) : (s.setFlags f).mem = s.mem := rfl
@[simp] theorem State.setFlags_halted (f : Flags) : (s.setFlags f).halted = s.halted := rfl
@[simp] theorem State.setFlags_draws (f : Flags) : (s.setFlags f).draws = s.draws := rfl
@[simp] theorem State.setFlags_reg (f : Flags) (q : Reg) : (s.setFlags f).reg q = s.reg q := by cases q <;> rfl
@[simp] theorem State.setFlags_cell (f : Flags) (k : Word) : (s.setFlags f).cell k = s.cell k := by simp [State.cell]
@[simp] theorem State.setFlags_lane (f : Flags) (k : Nat) : (s.setFlags f).lane k = s.lane k := by simp [State.lane]

@[simp] theorem State.halt_ip : (s.halt).ip = s.ip := rfl
@[simp] theorem State.halt_sp : (s.halt).sp = s.sp := rfl
@[simp] theorem State.halt_fl : (s.halt).fl = s.fl := rfl
@[simp] theorem State.halt_mem : (s.halt).mem = s.mem := rfl
@[simp] theorem State.halt_halted : (s.halt).halted = true := rfl
@[simp] theorem State.halt_draws : (s.halt).draws = s.draws := rfl
@[simp] theorem State.halt_reg (q : Reg) : (s.halt).reg q = s.reg q := by cases q <;> rfl
@[simp] theorem State.halt_cell (k : Word) : (s.halt).cell k = s.cell k := by simp [State.cell]
@[simp] theorem State.halt_lane (k : Nat) : (s.halt).lane k = s.lane k := by simp [State.lane]

@[simp] theorem State.advance_ip (len : Word) : (s.advance len).ip = s.ip + len := rfl
@[simp] theorem State.advance_sp (len : Word) : (s.advance len).sp = s.sp := rfl
@[simp] theorem State.advance_fl (len : Word) : (s.advance len).fl = s.fl := rfl
@[simp] theorem State.advance_mem (len : Word) : (s.advance len).mem = s.mem := rfl
@[simp] theorem State.advance_halted (len : Word) : (s.advance len).halted = s.halted := rfl
@[simp] theorem State.advance_draws (len : Word) : (s.advance len).draws = s.draws := rfl
@[simp] theorem State.advance_reg (len : Word) (q : Reg) : (s.advance len).reg q = s.reg q := by cases q <;> rfl
@[simp] theorem State.advance_cell (len : Word) (k : Word) : (s.advance len).cell k = s.cell k := by simp [State.cell]
@[simp] theorem State.advance_lane (len : Word) (k : Nat) : (s.advance len).lane k = s.lane k := by simp [State.lane]

@[simp] theorem State.drawFlags_ip : (s.drawFlags).ip = s.ip := rfl
@[simp] theorem State.drawFlags_sp : (s.drawFlags).sp = s.sp := rfl
@[simp] theorem State.drawFlags_fl : (s.drawFlags).fl = flagsOfBits (Config.freeFlags s.draws) := rfl
@[simp] theorem State.drawFlags_mem : (s.drawFlags).mem = s.mem := rfl
@[simp] theorem State.drawFlags_halted : (s.drawFlags).halted = s.halted := rfl
@[simp] theorem State.drawFlags_draws : (s.drawFlags).draws = s.draws + 1 := rfl
@[simp] theorem State.drawFlags_reg (q : Reg) : (s.drawFlags).reg q = s.reg q := by cases q <;> rfl
@[simp] theorem State.drawFlags_cell (k : Word) : (s.drawFlags).cell k = s.cell k := by simp [State.cell]
@[simp] theorem State.drawFlags_lane (k : Nat) : (s.drawFlags).lane k = s.lane k := by simp [State.lane]

@[simp] theorem State.setCell_ip (a v : Word) : (s.setCell a v).ip = s.ip := rfl
@[simp] theorem State.setCell_sp (a v : Word) : (s.setCell a v).sp = s.sp := rfl
@[simp] theorem State.setCell_fl (a v : Word) : (s.setCell a v).fl = s.fl := rfl
@[simp] theorem State.setCell_mem (a v : Word) : (s.setCell a v).mem = writeCell s.mem a v := rfl
@[simp] theorem State.setCell_halted (a v : Word) : (s.setCell a v).halted = s.halted := rfl
@[simp] theorem State.setCell_draws (a v : Word) : (s.setCell a v).draws = s.draws := rfl
@[simp] theorem State.setCell_reg (a v : Word) (q : Reg) : (s.setCell a v).reg q = s.reg q := by cases q <;> rfl

@[simp] theorem State.nextIp_eq (len : Word) : s.nextIp len = s.ip + len := rfl

end Sys2Proof.Machine
end

