-- ==== Sys2Proof/Laws/Memory.lean ====
section
/-! SUPPORT. Memory: read after write, and the canonical form, which every memory operation keeps. -/

namespace Sys2Proof.Machine

/-! ### Byte lanes -/

theorem readLane_writeLane_same (m : List Host.Cell) (k : Nat) (b : Byte) : readLane (writeLane m k b) k = some b := by
  induction m with
  | nil => simp [writeLane, readLane]
  | cons c rest ih =>
    obtain ⟨k', b'⟩ := c
    simp only [writeLane]
    split
    · simp [readLane]
    · split
      · simp [readLane]
      · rename_i h
        simp [readLane, h, ih]

theorem readLane_writeLane_ne (m : List Host.Cell) (k j : Nat) (b : Byte) (h : j ≠ k) :
    readLane (writeLane m k b) j = readLane m j := by
  induction m with
  | nil => simp [writeLane, readLane, h]
  | cons c rest ih =>
    obtain ⟨k', b'⟩ := c
    simp only [writeLane]
    split
    · simp [readLane, h]
    · split
      · rename_i h2
        subst h2
        simp [readLane, h]
      · simp [readLane, ih]

/-- What a lane reads as after a write of one lane. -/
theorem readLane_writeLane (m : List Host.Cell) (k j : Nat) (b : Byte) :
    readLane (writeLane m k b) j = if j = k then some b else readLane m j := by
  split
  · rename_i h
    rw [h, readLane_writeLane_same]
  · rename_i h
    exact readLane_writeLane_ne m k j b h

theorem mem_keys_writeLane (m : List Host.Cell) (k : Nat) (b : Byte) (c : Host.Cell) (h : c ∈ writeLane m k b) :
    c.1 = k ∨ c ∈ m := by
  induction m with
  | nil =>
    simp only [writeLane, List.mem_singleton] at h
    exact .inl (by rw [h])
  | cons d rest ih =>
    obtain ⟨k', b'⟩ := d
    simp only [writeLane] at h
    split at h
    · rcases List.mem_cons.1 h with rfl | h
      · exact .inl rfl
      · exact .inr h
    · split at h
      · rcases List.mem_cons.1 h with rfl | h
        · exact .inl rfl
        · exact .inr (List.mem_cons_of_mem _ h)
      · rcases List.mem_cons.1 h with rfl | h
        · exact .inr List.mem_cons_self
        · exact (ih h).imp id (List.mem_cons_of_mem _)

theorem keysAbove_iff (k : Nat) (m : List Host.Cell) : keysAbove k m = true ↔ ∀ c ∈ m, k < c.1 := by
  simp [keysAbove]

theorem keysRise_writeLane (m : List Host.Cell) (k : Nat) (b : Byte) (h : keysRise m = true) :
    keysRise (writeLane m k b) = true := by
  induction m with
  | nil => simp [writeLane, keysRise, keysAbove]
  | cons c rest ih =>
    obtain ⟨k', b'⟩ := c
    simp only [keysRise, Bool.and_eq_true, keysAbove_iff] at h
    simp only [writeLane]
    split
    · rename_i hlt
      simp only [keysRise, Bool.and_eq_true, keysAbove_iff, List.mem_cons, forall_eq_or_imp]
      exact ⟨⟨hlt, fun c hc => lt_trans hlt (h.1 c hc)⟩, h⟩
    · split
      · rename_i heq
        subst heq
        simpa only [keysRise, Bool.and_eq_true, keysAbove_iff] using h
      · rename_i h1 h2
        simp only [keysRise, Bool.and_eq_true, keysAbove_iff]
        refine ⟨fun c hc => ?_, ih h.2⟩
        rcases mem_keys_writeLane rest k b c hc with hk | hm
        · omega
        · exact h.1 c hm

/-- A lane reads as something exactly where its key is listed. -/
theorem readLane_isSome_of_mem (m : List Host.Cell) (c : Host.Cell) (h : c ∈ m) : (readLane m c.1).isSome = true := by
  induction m with
  | nil => cases h
  | cons d rest ih =>
    obtain ⟨k', b'⟩ := d
    simp only [readLane]
    split
    · rfl
    · rename_i hne
      rcases List.mem_cons.1 h with rfl | h
      · exact absurd rfl hne
      · exact ih h

/-! ### Cells -/

theorem toNat_append_eq {n m : Nat} (x : BitVec n) (y : BitVec m) : (x ++ y).toNat = x.toNat * 2 ^ m + y.toNat := by
  rw [BitVec.toNat_append, ← Nat.shiftLeft_add_eq_or_of_lt y.isLt, Nat.shiftLeft_eq]

theorem toNat_joinBytes (hi lo : Byte) : (joinBytes hi lo).toNat = hi.toNat * 256 + lo.toNat := toNat_append_eq hi lo

theorem toNat_lowByte (v : Word) : (lowByte v).toNat = v.toNat % 256 := by
  simp [lowByte, BitVec.extractLsb'_toNat]

theorem toNat_highByte (v : Word) : (highByte v).toNat = v.toNat / 256 := by
  have := v.isLt
  simp only [highByte, BitVec.extractLsb'_toNat, Nat.shiftRight_eq_div_pow]
  omega

theorem joinBytes_halves (v : Word) : joinBytes (highByte v) (lowByte v) = v := by
  apply BitVec.eq_of_toNat_eq
  rw [toNat_joinBytes, toNat_lowByte, toNat_highByte]
  omega

@[simp] theorem lowByte_joinBytes (hi lo : Byte) : lowByte (joinBytes hi lo) = lo := by
  have := lo.isLt
  apply BitVec.eq_of_toNat_eq
  rw [toNat_lowByte, toNat_joinBytes]
  omega

@[simp] theorem highByte_joinBytes (hi lo : Byte) : highByte (joinBytes hi lo) = hi := by
  have := lo.isLt
  apply BitVec.eq_of_toNat_eq
  rw [toNat_highByte, toNat_joinBytes]
  omega

/-- What a lane reads as after a write of one cell. -/
theorem readLane_writeCell (m : List Host.Cell) (a v : Word) (k : Nat) :
    readLane (writeCell m a v) k =
      if k = highLane a then some (highByte v) else if k = lowLane a then some (lowByte v) else readLane m k := by
  simp [writeCell, readLane_writeLane]

theorem lowLane_ne_highLane (a b : Word) : lowLane a ≠ highLane b := by
  simp only [lowLane, highLane]
  omega

theorem lowLane_inj (a b : Word) : lowLane a = lowLane b ↔ a = b := by
  simp [lowLane, BitVec.toNat_inj]

theorem highLane_inj (a b : Word) : highLane a = highLane b ↔ a = b := by
  simp [highLane, BitVec.toNat_inj]

/-- A cell reads as written, and no write reaches another cell. -/
theorem readCell_writeCell (m : List Host.Cell) (a v b : Word) :
    readCell (writeCell m a v) b = if b = a then some v else readCell m b := by
  simp only [readCell, readLane_writeCell, highLane_inj, lowLane_inj, lowLane_ne_highLane,
    (lowLane_ne_highLane _ _).symm, if_false]
  by_cases h : b = a
  · simp [h, joinBytes_halves]
  · simp [h]

@[simp] theorem State.setCell_cell (s : State) (a v b : Word) :
    (s.setCell a v).cell b = if b = a then some v else s.cell b :=
  readCell_writeCell s.mem a v b

/-- Every byte outside the cell written reads as before. -/
theorem State.setCell_lane (s : State) (a v : Word) (k : Nat) :
    (s.setCell a v).lane k =
      if k = highLane a then some (highByte v) else if k = lowLane a then some (lowByte v) else s.lane k :=
  readLane_writeCell s.mem a v k

/-! ### The canonical form -/

theorem highLane_lt (a : Word) : highLane a < 2 * Config.memCells := by
  have := a.isLt
  simp only [highLane, Config.memCells]
  omega

theorem lowLane_lt (a : Word) : lowLane a < 2 * Config.memCells := by
  have := highLane_lt a
  simp only [highLane] at this
  simp only [lowLane]
  omega

theorem keysInRange_writeLane (m : List Host.Cell) (k : Nat) (b : Byte) (hk : k < 2 * Config.memCells)
    (h : keysInRange m = true) : keysInRange (writeLane m k b) = true := by
  simp only [keysInRange, List.all_eq_true, decide_eq_true_eq] at h ⊢
  intro c hc
  rcases mem_keys_writeLane m k b c hc with hc | hc
  · omega
  · exact h c hc

theorem lanesPaired_writeCell (m : List Host.Cell) (a v : Word) (h : lanesPaired m = true) :
    lanesPaired (writeCell m a v) = true := by
  simp only [lanesPaired, List.all_eq_true, readLane_writeCell] at h ⊢
  intro c hc
  have hkey : c.1 = highLane a ∨ c.1 = lowLane a ∨ c ∈ m := by
    rcases mem_keys_writeLane _ _ _ c hc with hc | hc
    · exact .inl hc
    · exact .inr (mem_keys_writeLane _ _ _ c hc)
  rcases hkey with hk | hk | hk
  · simp only [highLane] at hk
    simp [hk, highLane, lowLane]
  · simp only [lowLane] at hk
    simp [hk, highLane]
  · have hs := h c hk
    generalize (if c.1 % 2 = 0 then c.1 + 1 else c.1 - 1) = j at hs ⊢
    by_cases h1 : j = highLane a
    · simp [h1]
    · by_cases h2 : j = lowLane a
      · simp [h2, lowLane_ne_highLane]
      · simpa [h1, h2] using hs

/-- A write of a cell keeps the canonical form. -/
theorem wf_writeCell (m : List Host.Cell) (a v : Word) (h : Memory.wf m = true) : Memory.wf (writeCell m a v) = true := by
  simp only [Memory.wf, Bool.and_eq_true] at h ⊢
  obtain ⟨⟨hr, hk⟩, hp⟩ := h
  exact ⟨⟨keysRise_writeLane _ _ _ (keysRise_writeLane _ _ _ hr),
    keysInRange_writeLane _ _ _ (highLane_lt a) (keysInRange_writeLane _ _ _ (lowLane_lt a) hk)⟩,
    lanesPaired_writeCell m a v hp⟩

theorem wf_reset : Memory.wf State.reset.mem = true := by decide

end Sys2Proof.Machine
end

