-- ==== Sys2Proof/Laws/Decode.lean ====
section
/-! SUPPORT. The fields of an encoded word are read back as they were written. -/

namespace Sys2Proof

open Machine (toNat_append_eq)

@[simp] theorem Reg.ofCode_code (r : Reg) : Reg.ofCode r.code = r := by cases r <;> rfl

theorem Reg.code_ofCode (c : BitVec 3) : (Reg.ofCode c).code = c := by revert c; decide

@[simp] theorem Mode.ofCode_code (m : Mode) : Mode.ofCode m.code = m := by cases m <;> rfl

theorem Mode.code_ofCode (c : BitVec 4) : (Mode.ofCode c).code = c := by revert c; decide

theorem wordR0_toNat (op : BitVec 10) : (wordR0 op).toNat = op.toNat * 8 := by
  exact (toNat_append_eq (0b000#3 ++ op) 0b000#3).trans (by simp only [toNat_append_eq]; simp)

theorem wordR1_toNat (op : BitVec 10) (r : Reg) :
    (wordR1 op r).toNat = 8192 + op.toNat * 8 + r.code.toNat := by
  exact (toNat_append_eq (0b001#3 ++ op) r.code).trans (by simp only [toNat_append_eq]; simp; omega)

theorem wordR2_toNat (op : BitVec 7) (r s : Reg) :
    (wordR2 op r s).toNat = 16384 + op.toNat * 64 + s.code.toNat * 8 + r.code.toNat := by
  exact (toNat_append_eq (0b010#3 ++ op ++ s.code) r.code).trans (by simp only [toNat_append_eq]; simp; omega)

theorem wordR3_toNat (op : BitVec 4) (r s t : Reg) :
    (wordR3 op r s t).toNat = 24576 + op.toNat * 512 + t.code.toNat * 64 + s.code.toNat * 8 + r.code.toNat := by
  exact (toNat_append_eq (0b011#3 ++ op ++ t.code ++ s.code) r.code).trans (by simp only [toNat_append_eq]; simp; omega)

theorem wordM_toNat (op : BitVec 5) (b : BitVec 1) (m : Mode) (r : Reg) :
    (wordM op b m r).toNat = 32768 + op.toNat * 256 + b.toNat * 128 + m.code.toNat * 8 + r.code.toNat := by
  exact (toNat_append_eq (0b100#3 ++ op ++ b ++ m.code) r.code).trans (by simp only [toNat_append_eq]; simp; omega)

theorem wordJ_toNat (op : BitVec 7) (r s : Reg) :
    (wordJ op r s).toNat = 40960 + op.toNat * 64 + s.code.toNat * 8 + r.code.toNat := by
  exact (toNat_append_eq (0b101#3 ++ op ++ s.code) r.code).trans (by simp only [toNat_append_eq]; simp; omega)

theorem wordR2I_toNat (op : BitVec 7) (r s : Reg) :
    (wordR2I op r s).toNat = 49152 + op.toNat * 64 + s.code.toNat * 8 + r.code.toNat := by
  exact (toNat_append_eq (0b110#3 ++ op ++ s.code) r.code).trans (by simp only [toNat_append_eq]; simp; omega)

/-- A slice of a word is read off its number. -/
theorem slice_eq {len : Nat} (w : Word) (lo : Nat) (v : BitVec len) (h : w.toNat / 2 ^ lo % 2 ^ len = v.toNat) :
    w.extractLsb' lo len = v := by
  apply BitVec.eq_of_toNat_eq
  rw [BitVec.extractLsb'_toNat, Nat.shiftRight_eq_div_pow, h]

section Fields

variable (op10 : BitVec 10) (op7 : BitVec 7) (op5 : BitVec 5) (op4 : BitVec 4) (b : BitVec 1) (m : Mode) (r s t : Reg)

@[simp] theorem typeField_wordR0 : typeField (wordR0 op10) = 0 := by
  have h1 := op10.isLt
  apply slice_eq
  rw [wordR0_toNat]
  simp
  omega

@[simp] theorem typeField_wordR1 : typeField (wordR1 op10 r) = 1 := by
  have h1 := op10.isLt
  have h2 := r.code.isLt
  apply slice_eq
  rw [wordR1_toNat]
  simp
  omega

@[simp] theorem typeField_wordR2 : typeField (wordR2 op7 r s) = 2 := by
  have h1 := op7.isLt
  have h2 := r.code.isLt
  have h3 := s.code.isLt
  apply slice_eq
  rw [wordR2_toNat]
  simp
  omega

@[simp] theorem typeField_wordR3 : typeField (wordR3 op4 r s t) = 3 := by
  have h1 := op4.isLt
  have h2 := r.code.isLt
  have h3 := s.code.isLt
  have h4 := t.code.isLt
  apply slice_eq
  rw [wordR3_toNat]
  simp
  omega

@[simp] theorem typeField_wordM : typeField (wordM op5 b m r) = 4 := by
  have h1 := op5.isLt
  have h2 := r.code.isLt
  have h3 := b.isLt
  have h4 := m.code.isLt
  apply slice_eq
  rw [wordM_toNat]
  simp
  omega

@[simp] theorem typeField_wordJ : typeField (wordJ op7 r s) = 5 := by
  have h1 := op7.isLt
  have h2 := r.code.isLt
  have h3 := s.code.isLt
  apply slice_eq
  rw [wordJ_toNat]
  simp
  omega

@[simp] theorem typeField_wordR2I : typeField (wordR2I op7 r s) = 6 := by
  have h1 := op7.isLt
  have h2 := r.code.isLt
  have h3 := s.code.isLt
  apply slice_eq
  rw [wordR2I_toNat]
  simp
  omega

theorem opcode10_wordR0 : opcode10 (wordR0 op10) = op10 := by
  have h1 := op10.isLt
  apply slice_eq
  rw [wordR0_toNat]
  omega

theorem opcode10_wordR1 : opcode10 (wordR1 op10 r) = op10 := by
  have h1 := op10.isLt
  have h2 := r.code.isLt
  apply slice_eq
  rw [wordR1_toNat]
  omega

theorem rrrField_wordR1 : rrrField (wordR1 op10 r) = r := by
  have h1 := op10.isLt
  have h2 := r.code.isLt
  refine (congrArg Reg.ofCode (slice_eq _ _ r.code ?_)).trans (Reg.ofCode_code r)
  rw [wordR1_toNat]
  omega

theorem opcode7_wordR2 : opcode7 (wordR2 op7 r s) = op7 := by
  have h1 := op7.isLt
  have h2 := r.code.isLt
  have h3 := s.code.isLt
  apply slice_eq
  rw [wordR2_toNat]
  omega

theorem rrrField_wordR2 : rrrField (wordR2 op7 r s) = r := by
  have h1 := op7.isLt
  have h2 := r.code.isLt
  have h3 := s.code.isLt
  refine (congrArg Reg.ofCode (slice_eq _ _ r.code ?_)).trans (Reg.ofCode_code r)
  rw [wordR2_toNat]
  omega

theorem sssField_wordR2 : sssField (wordR2 op7 r s) = s := by
  have h1 := op7.isLt
  have h2 := r.code.isLt
  have h3 := s.code.isLt
  refine (congrArg Reg.ofCode (slice_eq _ _ s.code ?_)).trans (Reg.ofCode_code s)
  rw [wordR2_toNat]
  omega

theorem opcode4_wordR3 : opcode4 (wordR3 op4 r s t) = op4 := by
  have h1 := op4.isLt
  have h2 := r.code.isLt
  have h3 := s.code.isLt
  have h4 := t.code.isLt
  apply slice_eq
  rw [wordR3_toNat]
  omega

theorem rrrField_wordR3 : rrrField (wordR3 op4 r s t) = r := by
  have h1 := op4.isLt
  have h2 := r.code.isLt
  have h3 := s.code.isLt
  have h4 := t.code.isLt
  refine (congrArg Reg.ofCode (slice_eq _ _ r.code ?_)).trans (Reg.ofCode_code r)
  rw [wordR3_toNat]
  omega

theorem sssField_wordR3 : sssField (wordR3 op4 r s t) = s := by
  have h1 := op4.isLt
  have h2 := r.code.isLt
  have h3 := s.code.isLt
  have h4 := t.code.isLt
  refine (congrArg Reg.ofCode (slice_eq _ _ s.code ?_)).trans (Reg.ofCode_code s)
  rw [wordR3_toNat]
  omega

theorem tttField_wordR3 : tttField (wordR3 op4 r s t) = t := by
  have h1 := op4.isLt
  have h2 := r.code.isLt
  have h3 := s.code.isLt
  have h4 := t.code.isLt
  refine (congrArg Reg.ofCode (slice_eq _ _ t.code ?_)).trans (Reg.ofCode_code t)
  rw [wordR3_toNat]
  omega

theorem opcode5_wordM : opcode5 (wordM op5 b m r) = op5 := by
  have h1 := op5.isLt
  have h2 := b.isLt
  have h3 := m.code.isLt
  have h4 := r.code.isLt
  apply slice_eq
  rw [wordM_toNat]
  omega

theorem storeBit_wordM : storeBit (wordM op5 b m r) = b := by
  have h1 := op5.isLt
  have h2 := b.isLt
  have h3 := m.code.isLt
  have h4 := r.code.isLt
  apply slice_eq
  rw [wordM_toNat]
  omega

theorem modeField_wordM : modeField (wordM op5 b m r) = m := by
  have h1 := op5.isLt
  have h2 := b.isLt
  have h3 := m.code.isLt
  have h4 := r.code.isLt
  refine (congrArg Mode.ofCode (slice_eq _ _ m.code ?_)).trans (Mode.ofCode_code m)
  rw [wordM_toNat]
  omega

theorem rrrField_wordM : rrrField (wordM op5 b m r) = r := by
  have h1 := op5.isLt
  have h2 := b.isLt
  have h3 := m.code.isLt
  have h4 := r.code.isLt
  refine (congrArg Reg.ofCode (slice_eq _ _ r.code ?_)).trans (Reg.ofCode_code r)
  rw [wordM_toNat]
  omega

theorem opcode7_wordJ : opcode7 (wordJ op7 r s) = op7 := by
  have h1 := op7.isLt
  have h2 := r.code.isLt
  have h3 := s.code.isLt
  apply slice_eq
  rw [wordJ_toNat]
  omega

theorem rrrField_wordJ : rrrField (wordJ op7 r s) = r := by
  have h1 := op7.isLt
  have h2 := r.code.isLt
  have h3 := s.code.isLt
  refine (congrArg Reg.ofCode (slice_eq _ _ r.code ?_)).trans (Reg.ofCode_code r)
  rw [wordJ_toNat]
  omega

theorem sssField_wordJ : sssField (wordJ op7 r s) = s := by
  have h1 := op7.isLt
  have h2 := r.code.isLt
  have h3 := s.code.isLt
  refine (congrArg Reg.ofCode (slice_eq _ _ s.code ?_)).trans (Reg.ofCode_code s)
  rw [wordJ_toNat]
  omega

theorem opcode7_wordR2I : opcode7 (wordR2I op7 r s) = op7 := by
  have h1 := op7.isLt
  have h2 := r.code.isLt
  have h3 := s.code.isLt
  apply slice_eq
  rw [wordR2I_toNat]
  omega

theorem rrrField_wordR2I : rrrField (wordR2I op7 r s) = r := by
  have h1 := op7.isLt
  have h2 := r.code.isLt
  have h3 := s.code.isLt
  refine (congrArg Reg.ofCode (slice_eq _ _ r.code ?_)).trans (Reg.ofCode_code r)
  rw [wordR2I_toNat]
  omega

theorem sssField_wordR2I : sssField (wordR2I op7 r s) = s := by
  have h1 := op7.isLt
  have h2 := r.code.isLt
  have h3 := s.code.isLt
  refine (congrArg Reg.ofCode (slice_eq _ _ s.code ?_)).trans (Reg.ofCode_code s)
  rw [wordR2I_toNat]
  omega

end Fields

/-! What the decoder reads from a word put together from its fields, one lemma per type. -/

theorem decode_wordR0 (op : BitVec 10) (w : Word) : decode (wordR0 op) w = assigned (decodeR0 op) := by
  simp [decode, opcode10_wordR0]

theorem decode_wordR1 (op : BitVec 10) (r : Reg) (w : Word) :
    decode (wordR1 op r) w = assigned (decodeR1 op r) := by
  simp [decode, opcode10_wordR1, rrrField_wordR1]

theorem decode_wordR2 (op : BitVec 7) (r s : Reg) (w : Word) :
    decode (wordR2 op r s) w = assigned (decodeR2 op r s) := by
  simp [decode, opcode7_wordR2, rrrField_wordR2, sssField_wordR2]

theorem decode_wordR3 (op : BitVec 4) (r s t : Reg) (w : Word) :
    decode (wordR3 op r s t) w = assigned (decodeR3 op r s t) := by
  simp [decode, opcode4_wordR3, rrrField_wordR3, sssField_wordR3, tttField_wordR3]

theorem decode_wordM (op : BitVec 5) (b : BitVec 1) (m : Mode) (r : Reg) (w : Word) :
    decode (wordM op b m r) w = assigned (decodeM op b m r w) := by
  simp [decode, opcode5_wordM, storeBit_wordM, modeField_wordM, rrrField_wordM]

theorem decode_wordJ (op : BitVec 7) (r s : Reg) (w : Word) :
    decode (wordJ op r s) w = assigned (decodeJ op r s w) := by
  simp [decode, opcode7_wordJ, rrrField_wordJ, sssField_wordJ]

theorem decode_wordR2I (op : BitVec 7) (r s : Reg) (w : Word) :
    decode (wordR2I op r s) w = assigned (decodeR2I op r s w) := by
  simp [decode, opcode7_wordR2I, rrrField_wordR2I, sssField_wordR2I]

/-- One word for the types 0 to 3, two for 4 to 6. -/
theorem lengthOf_eq (w : Word) :
    lengthOf w = if (typeField w).toNat < 4 then some 1 else if (typeField w).toNat < 7 then some 2 else none := by
  unfold lengthOf
  generalize typeField w = c
  revert c
  decide

end Sys2Proof
end

