-- ==== Sys2Proof/Laws/Ops.lean ====
section
/-! SUPPORT. For each shared operation, once, everything it can do: the lemmas to cite instead of unfolding it. -/

namespace Sys2Proof.Machine

/-! ### Sequencing -/

@[simp] theorem andThen_next {α β : Type} (a : α) (f : α → Result β) : andThen (.next a) f = f a := rfl

@[simp] theorem andThen_fault {α β : Type} (e : Fault) (f : α → Result β) : andThen (.fault e) f = .fault e := rfl

@[simp] theorem andThen_refused {α β : Type} (e : Refusal) (f : α → Result β) : andThen (.refused e) f = .refused e := rfl

/-- A sequence goes on exactly where both parts do. -/
theorem andThen_eq_next {α β : Type} (x : Result α) (f : α → Result β) (b : β) :
    andThen x f = .next b ↔ ∃ a, x = .next a ∧ f a = .next b := by
  cases x <;> simp

/-- A sequence faults where its first part does, or its second after the first went on. -/
theorem andThen_eq_fault {α β : Type} (x : Result α) (f : α → Result β) (e : Fault) :
    andThen x f = .fault e ↔ x = .fault e ∨ ∃ a, x = .next a ∧ f a = .fault e := by
  cases x <;> simp

/-- A sequence is refused where its first part is, or its second after the first went on. -/
theorem andThen_eq_refused {α β : Type} (x : Result α) (f : α → Result β) (e : Refusal) :
    andThen x f = .refused e ↔ x = .refused e ∨ ∃ a, x = .next a ∧ f a = .refused e := by
  cases x <;> simp

/-! ### Memory -/

/-- Every access is admitted (log entry 9). -/
@[simp] theorem memAdmit_eq (a : Word) (k : Access) : Config.memAdmit a k = true := rfl

/-- A read answers what the cell holds, and faults where it holds nothing. -/
theorem memRead_eq (k : Access) (a : Word) (s : State) :
    memRead k a s = match s.cell a with | some v => .next v | none => .fault .unwrittenRead := by
  cases h : s.cell a <;> simp [memRead, h]

theorem memRead_eq_next (k : Access) (a : Word) (s : State) (v : Word) :
    memRead k a s = .next v ↔ s.cell a = some v := by
  rw [memRead_eq]
  cases s.cell a <;> simp

theorem memRead_eq_fault (k : Access) (a : Word) (s : State) (e : Fault) :
    memRead k a s = .fault e ↔ s.cell a = none ∧ e = .unwrittenRead := by
  rw [memRead_eq]
  cases s.cell a <;> simp [eq_comm]

@[simp] theorem memRead_ne_refused (k : Access) (a : Word) (s : State) (e : Refusal) : memRead k a s ≠ .refused e := by
  rw [memRead_eq]
  cases s.cell a <;> simp

/-- A write always completes and replaces the cell. -/
@[simp] theorem memWrite_eq (a v : Word) (s : State) : memWrite a v s = .next (s.setCell a v) := by
  simp [memWrite]

/-! ### The stack -/

/-- A push always completes: SP one lower, the item in the cell SP then names. -/
@[simp] theorem push_eq (v : Word) (s : State) : push v s = .next ((s.setSp (s.sp - 1)).setCell (s.sp - 1) v) := by
  simp [push]

/-- A pop answers what the cell at SP holds, and SP is one higher. -/
theorem pop_eq_next (s : State) (p : Word × State) :
    pop s = .next p ↔ s.cell s.sp = some p.1 ∧ p.2 = s.setSp (s.sp + 1) := by
  simp only [pop, andThen_eq_next, memRead_eq_next]
  constructor
  · rintro ⟨v, hv, hp⟩
    cases hp
    exact ⟨hv, rfl⟩
  · rintro ⟨hv, hp⟩
    exact ⟨p.1, hv, by rw [← hp]⟩

theorem pop_eq_fault (s : State) (e : Fault) : pop s = .fault e ↔ s.cell s.sp = none ∧ e = .unwrittenRead := by
  simp [pop, andThen_eq_fault, memRead_eq_fault]

@[simp] theorem pop_ne_refused (s : State) (e : Refusal) : pop s ≠ .refused e := by
  simp [pop, andThen_eq_refused]

/-! ### Registers before others -/

theorem registerBefore_eq_next (r q : Reg) : registerBefore r = .next q ↔ Reg.before r = some q := by
  cases r <;> simp [registerBefore, Reg.before]

theorem registerBefore_eq_refused (r : Reg) (e : Refusal) :
    registerBefore r = .refused e ↔ r = .r0 ∧ e = .noRegisterBeforeR0 := by
  cases r <;> simp [registerBefore, Reg.before, eq_comm]

@[simp] theorem registerBefore_ne_fault (r : Reg) (e : Fault) : registerBefore r ≠ .fault e := by
  cases r <;> simp [registerBefore, Reg.before]

/-- The register before another is never that register. -/
theorem before_ne (r q : Reg) (h : Reg.before r = some q) : q ≠ r := by
  cases r <;> cases q <;> simp_all [Reg.before]

/-! ### Address modes -/

theorem operandRegister_eq_next (w : Word) (s : State) (a : Word) :
    operandRegister w s = .next a ↔ w.extractLsb' 3 13 = 0 ∧ a = s.reg (Reg.ofCode (w.extractLsb' 0 3)) := by
  unfold operandRegister
  split <;> simp_all [eq_comm]

theorem operandRegister_eq_refused (w : Word) (s : State) (e : Refusal) :
    operandRegister w s = .refused e ↔ w.extractLsb' 3 13 ≠ 0 ∧ e = .reservedOperandBits := by
  unfold operandRegister
  split <;> simp_all [eq_comm]

@[simp] theorem operandRegister_ne_fault (w : Word) (s : State) (e : Fault) : operandRegister w s ≠ .fault e := by
  unfold operandRegister
  split <;> simp

/-- An address mode is refused exactly where it has no place to name or its register number does not fit. -/
theorem effectiveAddress_eq_refused (m : Mode) (w : Word) (s : State) (e : Refusal) :
    effectiveAddress m w s = .refused e ↔
      (m = .i ∧ e = .storeToImmediate) ∨ (m.operandFits w = false ∧ e = .reservedOperandBits) := by
  cases m <;>
    simp [effectiveAddress, pointer, Mode.operandFits, andThen_eq_refused, operandRegister_eq_refused,
      @eq_comm _ _ e]

/-- An address mode faults only on a pointer that was never written. -/
theorem effectiveAddress_eq_fault (m : Mode) (w : Word) (s : State) (e : Fault)
    (h : effectiveAddress m w s = .fault e) : e = .unwrittenRead := by
  cases m <;>
    simp_all [effectiveAddress, pointer, andThen_eq_fault, memRead_eq_fault]
  case rn =>
    obtain ⟨_, _, _, he⟩ := h
    exact he

/-- The value of a mode is the operand itself or what the cell at its address holds. -/
theorem loadValue_eq_next (m : Mode) (w : Word) (s : State) (v : Word) :
    loadValue m w s = .next v ↔
      (m = .i ∧ v = w) ∨ (m ≠ .i ∧ ∃ a, effectiveAddress m w s = .next a ∧ s.cell a = some v) := by
  unfold loadValue
  split
  · simp_all [eq_comm]
  · simp_all [andThen_eq_next, memRead_eq_next]

theorem loadValue_eq_refused (m : Mode) (w : Word) (s : State) (e : Refusal) :
    loadValue m w s = .refused e ↔ m.operandFits w = false ∧ e = .reservedOperandBits := by
  unfold loadValue
  split
  · rename_i h
    simp [h, Mode.operandFits]
  · rename_i h
    simp [andThen_eq_refused, effectiveAddress_eq_refused, h]

theorem loadValue_eq_fault (m : Mode) (w : Word) (s : State) (e : Fault) (h : loadValue m w s = .fault e) :
    e = .unwrittenRead := by
  unfold loadValue at h
  split at h
  · cases h
  · rcases (andThen_eq_fault _ _ _).1 h with h | ⟨a, _, h⟩
    · exact effectiveAddress_eq_fault _ _ _ _ h
    · exact ((memRead_eq_fault _ _ _ _).1 h).2

/-- A load that completes changed the primary register and IP, and nothing else. -/
theorem load_eq_next (g : Word → Word → Word) (m : Mode) (r : Reg) (w : Word) (s t : State) :
    load g m r w s = .next t ↔
      ∃ v, loadValue m w s = .next v ∧ t = (s.setReg r (g (s.reg r) v)).advance 2 := by
  simp [load, andThen_eq_next, @eq_comm _ _ t]

/-- A byte store that completes read the cell, merged it and wrote it back. -/
theorem storeByte_eq_next (g : Word → Word → Word) (m : Mode) (r : Reg) (w : Word) (s t : State) :
    storeByte g m r w s = .next t ↔
      ∃ a old, effectiveAddress m w s = .next a ∧ s.cell a = some old ∧
        t = (s.setCell a (g old (s.reg r))).advance 2 := by
  simp [storeByte, andThen_eq_next, memRead_eq_next, @eq_comm _ _ t]

/-! ### Shared ends of meanings -/

/-- The end of an arithmetic instruction always completes. -/
theorem finishAlu_eq (r : Reg) (v len : Word) (s : State) :
    finishAlu r v len s = .next (((s.setReg r v).drawFlags).advance len) := rfl

/-- The J-type comparison is made unless both register fields are 000. -/
theorem jumpCompare_fl (r q : Reg) (s : State) :
    (jumpCompare r q s).fl = if r = .r0 ∧ q = .r0 then s.fl else flagsSub (s.reg r) (s.reg q) := by
  unfold jumpCompare
  split <;> rfl

/-- The J-type comparison changes nothing but FL. -/
theorem jumpCompare_frame (r q : Reg) (s : State) :
    (∀ k, (jumpCompare r q s).reg k = s.reg k) ∧ (jumpCompare r q s).ip = s.ip ∧ (jumpCompare r q s).sp = s.sp ∧
      (jumpCompare r q s).mem = s.mem ∧ (jumpCompare r q s).halted = s.halted ∧
      (jumpCompare r q s).draws = s.draws := by
  unfold jumpCompare
  split <;> simp

@[simp] theorem jumpCompare_reg (r q : Reg) (s : State) (k : Reg) : (jumpCompare r q s).reg k = s.reg k :=
  (jumpCompare_frame r q s).1 k

@[simp] theorem jumpCompare_ip (r q : Reg) (s : State) : (jumpCompare r q s).ip = s.ip := (jumpCompare_frame r q s).2.1

@[simp] theorem jumpCompare_sp (r q : Reg) (s : State) : (jumpCompare r q s).sp = s.sp := (jumpCompare_frame r q s).2.2.1

@[simp] theorem jumpCompare_mem (r q : Reg) (s : State) : (jumpCompare r q s).mem = s.mem :=
  (jumpCompare_frame r q s).2.2.2.1

@[simp] theorem jumpCompare_halted (r q : Reg) (s : State) : (jumpCompare r q s).halted = s.halted :=
  (jumpCompare_frame r q s).2.2.2.2.1

@[simp] theorem jumpCompare_draws (r q : Reg) (s : State) : (jumpCompare r q s).draws = s.draws :=
  (jumpCompare_frame r q s).2.2.2.2.2

@[simp] theorem jumpCompare_cell (r q : Reg) (s : State) (a : Word) : (jumpCompare r q s).cell a = s.cell a := by
  simp [State.cell]

@[simp] theorem jumpCompare_lane (r q : Reg) (s : State) (k : Nat) : (jumpCompare r q s).lane k = s.lane k := by
  simp [State.lane]

/-- A jump sets IP and nothing else. -/
theorem jumpIf_eq (b : Bool) (w : Word) (s : State) : jumpIf b w s = s.setIp (if b then w else s.ip + 2) := by
  cases b <;> rfl

end Sys2Proof.Machine
end

