-- ==== Sys2Proof/Laws/Fetch.lean ====
section
/-! SUPPORT. What a fetch can do, and what a step adds around it. -/

namespace Sys2Proof.Machine

theorem decoded_eq_next (x : Except Reject Instr) (i : Instr) : decoded x = .next i ↔ x = .ok i := by
  rcases x with (_ | _) | j <;> simp [decoded]

@[simp] theorem decoded_ne_fault (x : Except Reject Instr) (e : Fault) : decoded x ≠ .fault e := by
  rcases x with (_ | _) | j <;> simp [decoded]

/-- A refused decoding is one of the two the decoder rejects by. -/
theorem decoded_eq_refused (x : Except Reject Instr) (e : Refusal) :
    decoded x = .refused e ↔
      (x = .error .undefinedType ∧ e = .undefinedType) ∨ (x = .error .unassignedOpcode ∧ e = .unassignedOpcode) := by
  rcases x with (_ | _) | j <;> simp [decoded, eq_comm]

/-- A word of type 111 is no instruction, whatever stands after it. -/
theorem decode_type7 (w0 w1 : Word) (h : lengthOf w0 = none) : decode w0 w1 = .error .undefinedType := by
  unfold lengthOf at h
  unfold decode
  split at h <;> simp_all

/-- A one-word instruction does not depend on the word after it. -/
theorem decode_one (w0 w1 w1' : Word) (h : lengthOf w0 = some 1) : decode w0 w1 = decode w0 w1' := by
  unfold lengthOf at h
  unfold decode
  split at h <;> simp_all

theorem lengthOf_cases (w0 : Word) : lengthOf w0 = some 1 ∨ lengthOf w0 = some 2 ∨ lengthOf w0 = none := by
  rw [lengthOf_eq]
  split
  · exact .inl rfl
  · split
    · exact .inr (.inl rfl)
    · exact .inr (.inr rfl)

/-- A fetch answers the instruction that the decoder reads from the cell at IP and, for a two-word type, the next one. -/
theorem fetch_eq_next (s : State) (i : Instr) :
    fetch s = .next i ↔ ∃ w0, s.cell s.ip = some w0 ∧
      ((lengthOf w0 = some 1 ∧ decode w0 0 = .ok i) ∨
        (lengthOf w0 = some 2 ∧ ∃ w1, s.cell (s.ip + 1) = some w1 ∧ decode w0 w1 = .ok i)) := by
  simp only [fetch, andThen_eq_next, memRead_eq_next]
  refine exists_congr fun w0 => and_congr_right fun _ => ?_
  unfold fetchRest
  rcases lengthOf_cases w0 with h | h | h
  · simp [h, decoded_eq_next]
  · simp [h, decoded_eq_next, andThen_eq_next, memRead_eq_next]
  · simp [h]

/-- A fetch faults only on a cell that was never written. -/
theorem fetch_eq_fault (s : State) (e : Fault) (h : fetch s = .fault e) : e = .unwrittenRead := by
  rcases (andThen_eq_fault _ _ _).1 h with h | ⟨w0, _, h⟩
  · exact ((memRead_eq_fault _ _ _ _).1 h).2
  · unfold fetchRest at h
    split at h
    · rcases (andThen_eq_fault _ _ _).1 h with h | ⟨w1, _, h⟩
      · exact ((memRead_eq_fault _ _ _ _).1 h).2
      · exact absurd h (decoded_ne_fault _ _)
    · exact absurd h (decoded_ne_fault _ _)
    · cases h

/-- A fetch is refused only where the words are no instruction. -/
theorem fetch_eq_refused (s : State) (e : Refusal) (h : fetch s = .refused e) :
    e = .undefinedType ∨ e = .unassignedOpcode := by
  rcases (andThen_eq_refused _ _ _).1 h with h | ⟨w0, _, h⟩
  · exact absurd h (memRead_ne_refused _ _ _ _)
  · unfold fetchRest at h
    split at h
    · rcases (andThen_eq_refused _ _ _).1 h with h | ⟨w1, _, h⟩
      · exact absurd h (memRead_ne_refused _ _ _ _)
      · exact ((decoded_eq_refused _ _).1 h).imp And.right And.right
    · exact ((decoded_eq_refused _ _).1 h).imp And.right And.right
    · cases h
      exact .inl rfl

/-- A halted machine answers the same state. -/
theorem step_halted (s : State) (h : s.halted = true) : step s = .next s := if_pos h

/-- A running machine fetches and executes. -/
theorem step_running (s : State) (h : s.halted = false) : step s = andThen (fetch s) fun i => exec i s := by
  simp [step, h]

end Sys2Proof.Machine
end

