-- ==== Sys2Proof/Laws/PerInstr.lean ====
section
/-! SUPPORT. The family of lemmas about every instruction as syntax, one lemma per constructor of `Instr`. -/

/-- The length that the type of the first word gives is the number of words the encoder writes (`30_encoding.md` R80). -/
def Sys2Proof.Laws.EncodedLength.Statement (i : Sys2Proof.Instr) : Prop :=
  Sys2Proof.lengthOf (Sys2Proof.encodeW0 i) = some (Sys2Proof.encode i).length

namespace Sys2Proof

/-- An instruction without a second word is of a type below 4. -/
theorem encodedLength_one (i : Instr) (c : BitVec 3) (h : typeField (encodeW0 i) = c) (hc : c.toNat < 4)
    (hw : encodeW1 i = none) : Laws.EncodedLength.Statement i := by
  unfold Laws.EncodedLength.Statement encode
  rw [lengthOf_eq, h, hw, if_pos hc]
  rfl

/-- An instruction with a second word is of a type from 4 to 6. -/
theorem encodedLength_two (i : Instr) (c : BitVec 3) (w : Word) (h : typeField (encodeW0 i) = c)
    (hc : ¬c.toNat < 4 ∧ c.toNat < 7) (hw : encodeW1 i = some w) : Laws.EncodedLength.Statement i := by
  unfold Laws.EncodedLength.Statement encode
  rw [lengthOf_eq, h, hw, if_neg hc.1, if_pos hc.2]
  rfl

theorem Laws.EncodedLength.hlt : Laws.EncodedLength.Statement .hlt :=
  encodedLength_one _ _ (typeField_wordR0 _) (by decide) rfl
theorem Laws.EncodedLength.nop : Laws.EncodedLength.Statement .nop :=
  encodedLength_one _ _ (typeField_wordR0 _) (by decide) rfl
theorem Laws.EncodedLength.ldw (m : Mode) (r : Reg) (w : Word) : Laws.EncodedLength.Statement (.ldw m r w) :=
  encodedLength_two _ _ _ (typeField_wordM _ _ _ _) (by decide) rfl
theorem Laws.EncodedLength.stw (m : Mode) (r : Reg) (w : Word) : Laws.EncodedLength.Statement (.stw m r w) :=
  encodedLength_two _ _ _ (typeField_wordM _ _ _ _) (by decide) rfl
theorem Laws.EncodedLength.ldl (m : Mode) (r : Reg) (w : Word) : Laws.EncodedLength.Statement (.ldl m r w) :=
  encodedLength_two _ _ _ (typeField_wordM _ _ _ _) (by decide) rfl
theorem Laws.EncodedLength.stl (m : Mode) (r : Reg) (w : Word) : Laws.EncodedLength.Statement (.stl m r w) :=
  encodedLength_two _ _ _ (typeField_wordM _ _ _ _) (by decide) rfl
theorem Laws.EncodedLength.ldh (m : Mode) (r : Reg) (w : Word) : Laws.EncodedLength.Statement (.ldh m r w) :=
  encodedLength_two _ _ _ (typeField_wordM _ _ _ _) (by decide) rfl
theorem Laws.EncodedLength.sth (m : Mode) (r : Reg) (w : Word) : Laws.EncodedLength.Statement (.sth m r w) :=
  encodedLength_two _ _ _ (typeField_wordM _ _ _ _) (by decide) rfl
theorem Laws.EncodedLength.xch (r q : Reg) : Laws.EncodedLength.Statement (.xch r q) :=
  encodedLength_one _ _ (typeField_wordR2 _ _ _) (by decide) rfl
theorem Laws.EncodedLength.xeq (r q : Reg) : Laws.EncodedLength.Statement (.xeq r q) :=
  encodedLength_one _ _ (typeField_wordR2 _ _ _) (by decide) rfl
theorem Laws.EncodedLength.xne (r q : Reg) : Laws.EncodedLength.Statement (.xne r q) :=
  encodedLength_one _ _ (typeField_wordR2 _ _ _) (by decide) rfl
theorem Laws.EncodedLength.xlt (r q : Reg) : Laws.EncodedLength.Statement (.xlt r q) :=
  encodedLength_one _ _ (typeField_wordR2 _ _ _) (by decide) rfl
theorem Laws.EncodedLength.xgt (r q : Reg) : Laws.EncodedLength.Statement (.xgt r q) :=
  encodedLength_one _ _ (typeField_wordR2 _ _ _) (by decide) rfl
theorem Laws.EncodedLength.xle (r q : Reg) : Laws.EncodedLength.Statement (.xle r q) :=
  encodedLength_one _ _ (typeField_wordR2 _ _ _) (by decide) rfl
theorem Laws.EncodedLength.xge (r q : Reg) : Laws.EncodedLength.Statement (.xge r q) :=
  encodedLength_one _ _ (typeField_wordR2 _ _ _) (by decide) rfl
theorem Laws.EncodedLength.xat (r q : Reg) : Laws.EncodedLength.Statement (.xat r q) :=
  encodedLength_one _ _ (typeField_wordR2 _ _ _) (by decide) rfl
theorem Laws.EncodedLength.xbt (r q : Reg) : Laws.EncodedLength.Statement (.xbt r q) :=
  encodedLength_one _ _ (typeField_wordR2 _ _ _) (by decide) rfl
theorem Laws.EncodedLength.xae (r q : Reg) : Laws.EncodedLength.Statement (.xae r q) :=
  encodedLength_one _ _ (typeField_wordR2 _ _ _) (by decide) rfl
theorem Laws.EncodedLength.xbe (r q : Reg) : Laws.EncodedLength.Statement (.xbe r q) :=
  encodedLength_one _ _ (typeField_wordR2 _ _ _) (by decide) rfl
theorem Laws.EncodedLength.xyz (r q : Reg) : Laws.EncodedLength.Statement (.xyz r q) :=
  encodedLength_one _ _ (typeField_wordR2 _ _ _) (by decide) rfl
theorem Laws.EncodedLength.xnz (r q : Reg) : Laws.EncodedLength.Statement (.xnz r q) :=
  encodedLength_one _ _ (typeField_wordR2 _ _ _) (by decide) rfl
theorem Laws.EncodedLength.xyc (r q : Reg) : Laws.EncodedLength.Statement (.xyc r q) :=
  encodedLength_one _ _ (typeField_wordR2 _ _ _) (by decide) rfl
theorem Laws.EncodedLength.xnc (r q : Reg) : Laws.EncodedLength.Statement (.xnc r q) :=
  encodedLength_one _ _ (typeField_wordR2 _ _ _) (by decide) rfl
theorem Laws.EncodedLength.xyo (r q : Reg) : Laws.EncodedLength.Statement (.xyo r q) :=
  encodedLength_one _ _ (typeField_wordR2 _ _ _) (by decide) rfl
theorem Laws.EncodedLength.xno (r q : Reg) : Laws.EncodedLength.Statement (.xno r q) :=
  encodedLength_one _ _ (typeField_wordR2 _ _ _) (by decide) rfl
theorem Laws.EncodedLength.xys (r q : Reg) : Laws.EncodedLength.Statement (.xys r q) :=
  encodedLength_one _ _ (typeField_wordR2 _ _ _) (by decide) rfl
theorem Laws.EncodedLength.xns (r q : Reg) : Laws.EncodedLength.Statement (.xns r q) :=
  encodedLength_one _ _ (typeField_wordR2 _ _ _) (by decide) rfl
theorem Laws.EncodedLength.xyp (r q : Reg) : Laws.EncodedLength.Statement (.xyp r q) :=
  encodedLength_one _ _ (typeField_wordR2 _ _ _) (by decide) rfl
theorem Laws.EncodedLength.xnp (r q : Reg) : Laws.EncodedLength.Statement (.xnp r q) :=
  encodedLength_one _ _ (typeField_wordR2 _ _ _) (by decide) rfl
theorem Laws.EncodedLength.add (r q t : Reg) : Laws.EncodedLength.Statement (.add r q t) :=
  encodedLength_one _ _ (typeField_wordR3 _ _ _ _) (by decide) rfl
theorem Laws.EncodedLength.adc (r q t : Reg) : Laws.EncodedLength.Statement (.adc r q t) :=
  encodedLength_one _ _ (typeField_wordR3 _ _ _ _) (by decide) rfl
theorem Laws.EncodedLength.sub (r q t : Reg) : Laws.EncodedLength.Statement (.sub r q t) :=
  encodedLength_one _ _ (typeField_wordR3 _ _ _ _) (by decide) rfl
theorem Laws.EncodedLength.sbb (r q t : Reg) : Laws.EncodedLength.Statement (.sbb r q t) :=
  encodedLength_one _ _ (typeField_wordR3 _ _ _ _) (by decide) rfl
theorem Laws.EncodedLength.and (r q t : Reg) : Laws.EncodedLength.Statement (.and r q t) :=
  encodedLength_one _ _ (typeField_wordR3 _ _ _ _) (by decide) rfl
theorem Laws.EncodedLength.orr (r q t : Reg) : Laws.EncodedLength.Statement (.orr r q t) :=
  encodedLength_one _ _ (typeField_wordR3 _ _ _ _) (by decide) rfl
theorem Laws.EncodedLength.xor (r q t : Reg) : Laws.EncodedLength.Statement (.xor r q t) :=
  encodedLength_one _ _ (typeField_wordR3 _ _ _ _) (by decide) rfl
theorem Laws.EncodedLength.mul (r q t : Reg) : Laws.EncodedLength.Statement (.mul r q t) :=
  encodedLength_one _ _ (typeField_wordR3 _ _ _ _) (by decide) rfl
theorem Laws.EncodedLength.div (r q t : Reg) : Laws.EncodedLength.Statement (.div r q t) :=
  encodedLength_one _ _ (typeField_wordR3 _ _ _ _) (by decide) rfl
theorem Laws.EncodedLength.not (r q : Reg) : Laws.EncodedLength.Statement (.not r q) :=
  encodedLength_one _ _ (typeField_wordR2 _ _ _) (by decide) rfl
theorem Laws.EncodedLength.neg (r q : Reg) : Laws.EncodedLength.Statement (.neg r q) :=
  encodedLength_one _ _ (typeField_wordR2 _ _ _) (by decide) rfl
theorem Laws.EncodedLength.adi (r q : Reg) (w : Word) : Laws.EncodedLength.Statement (.adi r q w) :=
  encodedLength_two _ _ _ (typeField_wordR2I _ _ _) (by decide) rfl
theorem Laws.EncodedLength.sbi (r q : Reg) (w : Word) : Laws.EncodedLength.Statement (.sbi r q w) :=
  encodedLength_two _ _ _ (typeField_wordR2I _ _ _) (by decide) rfl
theorem Laws.EncodedLength.aci (r q : Reg) (w : Word) : Laws.EncodedLength.Statement (.aci r q w) :=
  encodedLength_two _ _ _ (typeField_wordR2I _ _ _) (by decide) rfl
theorem Laws.EncodedLength.sib (r q : Reg) (w : Word) : Laws.EncodedLength.Statement (.sib r q w) :=
  encodedLength_two _ _ _ (typeField_wordR2I _ _ _) (by decide) rfl
theorem Laws.EncodedLength.ani (r q : Reg) (w : Word) : Laws.EncodedLength.Statement (.ani r q w) :=
  encodedLength_two _ _ _ (typeField_wordR2I _ _ _) (by decide) rfl
theorem Laws.EncodedLength.ori (r q : Reg) (w : Word) : Laws.EncodedLength.Statement (.ori r q w) :=
  encodedLength_two _ _ _ (typeField_wordR2I _ _ _) (by decide) rfl
theorem Laws.EncodedLength.xri (r q : Reg) (w : Word) : Laws.EncodedLength.Statement (.xri r q w) :=
  encodedLength_two _ _ _ (typeField_wordR2I _ _ _) (by decide) rfl
theorem Laws.EncodedLength.asl (r q t : Reg) : Laws.EncodedLength.Statement (.asl r q t) :=
  encodedLength_one _ _ (typeField_wordR3 _ _ _ _) (by decide) rfl
theorem Laws.EncodedLength.asr (r q t : Reg) : Laws.EncodedLength.Statement (.asr r q t) :=
  encodedLength_one _ _ (typeField_wordR3 _ _ _ _) (by decide) rfl
theorem Laws.EncodedLength.lsr (r q t : Reg) : Laws.EncodedLength.Statement (.lsr r q t) :=
  encodedLength_one _ _ (typeField_wordR3 _ _ _ _) (by decide) rfl
theorem Laws.EncodedLength.rtl (r q t : Reg) : Laws.EncodedLength.Statement (.rtl r q t) :=
  encodedLength_one _ _ (typeField_wordR3 _ _ _ _) (by decide) rfl
theorem Laws.EncodedLength.rtr (r q t : Reg) : Laws.EncodedLength.Statement (.rtr r q t) :=
  encodedLength_one _ _ (typeField_wordR3 _ _ _ _) (by decide) rfl
theorem Laws.EncodedLength.rlc (r q t : Reg) : Laws.EncodedLength.Statement (.rlc r q t) :=
  encodedLength_one _ _ (typeField_wordR3 _ _ _ _) (by decide) rfl
theorem Laws.EncodedLength.rrc (r q t : Reg) : Laws.EncodedLength.Statement (.rrc r q t) :=
  encodedLength_one _ _ (typeField_wordR3 _ _ _ _) (by decide) rfl
theorem Laws.EncodedLength.cmp (r q : Reg) : Laws.EncodedLength.Statement (.cmp r q) :=
  encodedLength_one _ _ (typeField_wordR2 _ _ _) (by decide) rfl
theorem Laws.EncodedLength.tst (r q : Reg) : Laws.EncodedLength.Statement (.tst r q) :=
  encodedLength_one _ _ (typeField_wordR2 _ _ _) (by decide) rfl
theorem Laws.EncodedLength.flg (r : Reg) : Laws.EncodedLength.Statement (.flg r) :=
  encodedLength_one _ _ (typeField_wordR1 _ _) (by decide) rfl
theorem Laws.EncodedLength.flr (r : Reg) : Laws.EncodedLength.Statement (.flr r) :=
  encodedLength_one _ _ (typeField_wordR1 _ _) (by decide) rfl
theorem Laws.EncodedLength.jmp (r q : Reg) (w : Word) : Laws.EncodedLength.Statement (.jmp r q w) :=
  encodedLength_two _ _ _ (typeField_wordJ _ _ _) (by decide) rfl
theorem Laws.EncodedLength.jeq (r q : Reg) (w : Word) : Laws.EncodedLength.Statement (.jeq r q w) :=
  encodedLength_two _ _ _ (typeField_wordJ _ _ _) (by decide) rfl
theorem Laws.EncodedLength.jne (r q : Reg) (w : Word) : Laws.EncodedLength.Statement (.jne r q w) :=
  encodedLength_two _ _ _ (typeField_wordJ _ _ _) (by decide) rfl
theorem Laws.EncodedLength.jlt (r q : Reg) (w : Word) : Laws.EncodedLength.Statement (.jlt r q w) :=
  encodedLength_two _ _ _ (typeField_wordJ _ _ _) (by decide) rfl
theorem Laws.EncodedLength.jgt (r q : Reg) (w : Word) : Laws.EncodedLength.Statement (.jgt r q w) :=
  encodedLength_two _ _ _ (typeField_wordJ _ _ _) (by decide) rfl
theorem Laws.EncodedLength.jle (r q : Reg) (w : Word) : Laws.EncodedLength.Statement (.jle r q w) :=
  encodedLength_two _ _ _ (typeField_wordJ _ _ _) (by decide) rfl
theorem Laws.EncodedLength.jge (r q : Reg) (w : Word) : Laws.EncodedLength.Statement (.jge r q w) :=
  encodedLength_two _ _ _ (typeField_wordJ _ _ _) (by decide) rfl
theorem Laws.EncodedLength.jat (r q : Reg) (w : Word) : Laws.EncodedLength.Statement (.jat r q w) :=
  encodedLength_two _ _ _ (typeField_wordJ _ _ _) (by decide) rfl
theorem Laws.EncodedLength.jbt (r q : Reg) (w : Word) : Laws.EncodedLength.Statement (.jbt r q w) :=
  encodedLength_two _ _ _ (typeField_wordJ _ _ _) (by decide) rfl
theorem Laws.EncodedLength.jae (r q : Reg) (w : Word) : Laws.EncodedLength.Statement (.jae r q w) :=
  encodedLength_two _ _ _ (typeField_wordJ _ _ _) (by decide) rfl
theorem Laws.EncodedLength.jbe (r q : Reg) (w : Word) : Laws.EncodedLength.Statement (.jbe r q w) :=
  encodedLength_two _ _ _ (typeField_wordJ _ _ _) (by decide) rfl
theorem Laws.EncodedLength.jyz (r q : Reg) (w : Word) : Laws.EncodedLength.Statement (.jyz r q w) :=
  encodedLength_two _ _ _ (typeField_wordJ _ _ _) (by decide) rfl
theorem Laws.EncodedLength.jnz (r q : Reg) (w : Word) : Laws.EncodedLength.Statement (.jnz r q w) :=
  encodedLength_two _ _ _ (typeField_wordJ _ _ _) (by decide) rfl
theorem Laws.EncodedLength.jyc (r q : Reg) (w : Word) : Laws.EncodedLength.Statement (.jyc r q w) :=
  encodedLength_two _ _ _ (typeField_wordJ _ _ _) (by decide) rfl
theorem Laws.EncodedLength.jnc (r q : Reg) (w : Word) : Laws.EncodedLength.Statement (.jnc r q w) :=
  encodedLength_two _ _ _ (typeField_wordJ _ _ _) (by decide) rfl
theorem Laws.EncodedLength.jyo (r q : Reg) (w : Word) : Laws.EncodedLength.Statement (.jyo r q w) :=
  encodedLength_two _ _ _ (typeField_wordJ _ _ _) (by decide) rfl
theorem Laws.EncodedLength.jno (r q : Reg) (w : Word) : Laws.EncodedLength.Statement (.jno r q w) :=
  encodedLength_two _ _ _ (typeField_wordJ _ _ _) (by decide) rfl
theorem Laws.EncodedLength.jys (r q : Reg) (w : Word) : Laws.EncodedLength.Statement (.jys r q w) :=
  encodedLength_two _ _ _ (typeField_wordJ _ _ _) (by decide) rfl
theorem Laws.EncodedLength.jns (r q : Reg) (w : Word) : Laws.EncodedLength.Statement (.jns r q w) :=
  encodedLength_two _ _ _ (typeField_wordJ _ _ _) (by decide) rfl
theorem Laws.EncodedLength.jyp (r q : Reg) (w : Word) : Laws.EncodedLength.Statement (.jyp r q w) :=
  encodedLength_two _ _ _ (typeField_wordJ _ _ _) (by decide) rfl
theorem Laws.EncodedLength.jnp (r q : Reg) (w : Word) : Laws.EncodedLength.Statement (.jnp r q w) :=
  encodedLength_two _ _ _ (typeField_wordJ _ _ _) (by decide) rfl
theorem Laws.EncodedLength.lop (r q : Reg) (w : Word) : Laws.EncodedLength.Statement (.lop r q w) :=
  encodedLength_two _ _ _ (typeField_wordJ _ _ _) (by decide) rfl
theorem Laws.EncodedLength.psw (r : Reg) : Laws.EncodedLength.Statement (.psw r) :=
  encodedLength_one _ _ (typeField_wordR1 _ _) (by decide) rfl
theorem Laws.EncodedLength.psl (r : Reg) : Laws.EncodedLength.Statement (.psl r) :=
  encodedLength_one _ _ (typeField_wordR1 _ _) (by decide) rfl
theorem Laws.EncodedLength.psh (r : Reg) : Laws.EncodedLength.Statement (.psh r) :=
  encodedLength_one _ _ (typeField_wordR1 _ _) (by decide) rfl
theorem Laws.EncodedLength.ppw (r : Reg) : Laws.EncodedLength.Statement (.ppw r) :=
  encodedLength_one _ _ (typeField_wordR1 _ _) (by decide) rfl
theorem Laws.EncodedLength.ppl (r : Reg) : Laws.EncodedLength.Statement (.ppl r) :=
  encodedLength_one _ _ (typeField_wordR1 _ _) (by decide) rfl
theorem Laws.EncodedLength.pph (r : Reg) : Laws.EncodedLength.Statement (.pph r) :=
  encodedLength_one _ _ (typeField_wordR1 _ _) (by decide) rfl
theorem Laws.EncodedLength.cal (r q : Reg) (w : Word) : Laws.EncodedLength.Statement (.cal r q w) :=
  encodedLength_two _ _ _ (typeField_wordJ _ _ _) (by decide) rfl
theorem Laws.EncodedLength.ret (r q : Reg) : Laws.EncodedLength.Statement (.ret r q) :=
  encodedLength_two _ _ _ (typeField_wordJ _ _ _) (by decide) rfl
theorem Laws.EncodedLength.mov (r q : Reg) : Laws.EncodedLength.Statement (.mov r q) :=
  encodedLength_one _ _ (typeField_wordR3 _ _ _ _) (by decide) rfl
theorem Laws.EncodedLength.mvi (r : Reg) (w : Word) : Laws.EncodedLength.Statement (.mvi r w) :=
  encodedLength_two _ _ _ (typeField_wordR2I _ _ _) (by decide) rfl
theorem Laws.EncodedLength.lsl (r q t : Reg) : Laws.EncodedLength.Statement (.lsl r q t) :=
  encodedLength_one _ _ (typeField_wordR3 _ _ _ _) (by decide) rfl

end Sys2Proof
end

