-- ==== Sys2Proof/Tests/Slice0.lean ====
section
/-! SUPPORT. Tests. Expected values are the spec's own: the words of `95_test_vectors.md` 1.1 with the corrections of
`90_conflicts.md`, the vectors of its part 2, and the worked examples of `42_move_exchange.md` and `46_jump_loop.md`.
After them, for every obligation with hypotheses, a state and operands that meet them. -/

namespace Sys2Proof.Tests

open Sys2Proof.Machine

/-! ### Helpers -/

/-- The machine of the vectors: every register zero, IP = 0x0010, nothing loaded. -/
def start : State := State.reset.setIp 0x0010

/-- FL in the order of the vectors: Z S O C P. -/
def flags (z s o c p : Nat) : Flags := { z := z == 1, s := s == 1, o := o == 1, c := c == 1, p := p == 1 }

/-- One step with the one word `w` loaded at IP. -/
def run (s : State) (w : Word) : Result State := step (s.setCell s.ip w)

/-- One step with the two words loaded at IP. -/
def run2 (s : State) (w0 w1 : Word) : Result State := step ((s.setCell s.ip w0).setCell (s.ip + 1) w1)

/-- What is seen of the next state. -/
def seen {α β : Type} (x : Result β) (see : β → α) : Option α :=
  match x with
  | .next t => some (see t)
  | _ => none

/-- The fault, where it is one. -/
def faultOf {α : Type} (x : Result α) : Option Fault :=
  match x with
  | .fault e => some e
  | _ => none

/-- The refusal, where it is one. -/
def refusalOf {α : Type} (x : Result α) : Option Refusal :=
  match x with
  | .refused e => some e
  | _ => none

/-- A conditional exchange of r1 = 0x1111 and r2 = 0x2222 on the flags `f`. -/
def exchanged (f : Flags) (w : Word) : Option (Word × Word × Flags × Word) :=
  seen (run (((start.setReg .r1 0x1111).setReg .r2 0x2222).setFlags f) w) fun t => (t.reg .r1, t.reg .r2, t.fl, t.ip)

/-- A jump to 0x0040 that compares r1 = `a` with r2 = `b`. -/
def jumped (a b w : Word) : Option (Flags × Word) :=
  seen (run2 ((start.setReg .r1 a).setReg .r2 b) w 0x0040) fun t => (t.fl, t.ip)

/-- The words stand for the instruction, read and written. -/
abbrev reads (w0 w1 : Word) (i : Instr) : Prop := decode w0 w1 = .ok i ∧ encodeW0 i = w0

/-! ### Well-formedness: one ill-formed term for each check, and its neighbour that is well formed -/

theorem test_wf_store_to_immediate :
    (Instr.stw .i .r1 0).wellFormed = false ∧ (Instr.stl .i .r1 0).wellFormed = false ∧
    (Instr.sth .i .r1 0).wellFormed = false ∧ (Instr.ldw .i .r1 0).wellFormed = true := by decide

theorem test_wf_reserved_operand_bits :
    (Instr.ldw .rd .r1 8).wellFormed = false ∧ (Instr.sth .rn .r1 0x8000).wellFormed = false ∧
    (Instr.ldw .rd .r1 7).wellFormed = true ∧ (Instr.ldw .id .r1 8).wellFormed = true := by decide

theorem test_wf_no_register_before_r0 :
    (Instr.mul .r0 .r2 .r3).wellFormed = false ∧ (Instr.div .r0 .r2 .r3).wellFormed = false ∧
    (Instr.div .r2 .r0 .r3).wellFormed = false ∧ (Instr.mul .r1 .r0 .r0).wellFormed = true ∧
    (Instr.div .r1 .r1 .r0).wellFormed = true := by decide

/-! ### Decoding: a word of every constructor, written from the spec -/

theorem test_decode_r0 :
    reads 0x0000 0 .hlt ∧
    reads 0x0008 0 .nop := by decide

theorem test_decode_r1 :
    reads 0x2001 0 (.flg .r1) ∧
    reads 0x2009 0 (.flr .r1) ∧
    reads 0x2011 0 (.psw .r1) ∧
    reads 0x2019 0 (.psl .r1) ∧
    reads 0x2021 0 (.psh .r1) ∧
    reads 0x2029 0 (.ppw .r1) ∧
    reads 0x2031 0 (.ppl .r1) ∧
    reads 0x2039 0 (.pph .r1) := by decide

theorem test_decode_r2_1 :
    reads 0x4011 0 (.xch .r1 .r2) ∧
    reads 0x4051 0 (.xeq .r1 .r2) ∧
    reads 0x4091 0 (.xne .r1 .r2) ∧
    reads 0x40D1 0 (.xlt .r1 .r2) ∧
    reads 0x4111 0 (.xgt .r1 .r2) ∧
    reads 0x4151 0 (.xle .r1 .r2) ∧
    reads 0x4191 0 (.xge .r1 .r2) ∧
    reads 0x41D1 0 (.xat .r1 .r2) ∧
    reads 0x4211 0 (.xbt .r1 .r2) ∧
    reads 0x4251 0 (.xae .r1 .r2) ∧
    reads 0x4291 0 (.xbe .r1 .r2) ∧
    reads 0x42D1 0 (.xyz .r1 .r2) := by decide

theorem test_decode_r2_2 :
    reads 0x4311 0 (.xnz .r1 .r2) ∧
    reads 0x4351 0 (.xyc .r1 .r2) ∧
    reads 0x4391 0 (.xnc .r1 .r2) ∧
    reads 0x43D1 0 (.xyo .r1 .r2) ∧
    reads 0x4411 0 (.xno .r1 .r2) ∧
    reads 0x4451 0 (.xys .r1 .r2) ∧
    reads 0x4491 0 (.xns .r1 .r2) ∧
    reads 0x44D1 0 (.xyp .r1 .r2) ∧
    reads 0x4511 0 (.xnp .r1 .r2) ∧
    reads 0x4551 0 (.not .r1 .r2) ∧
    reads 0x4591 0 (.neg .r1 .r2) ∧
    reads 0x45D1 0 (.cmp .r1 .r2) := by decide

theorem test_decode_r2_3 :
    reads 0x4611 0 (.tst .r1 .r2) := by decide

theorem test_decode_r3_1 :
    reads 0x60D1 0 (.add .r1 .r2 .r3) ∧
    reads 0x62D1 0 (.adc .r1 .r2 .r3) ∧
    reads 0x64D1 0 (.sub .r1 .r2 .r3) ∧
    reads 0x66D1 0 (.sbb .r1 .r2 .r3) ∧
    reads 0x68D1 0 (.and .r1 .r2 .r3) ∧
    reads 0x6AD1 0 (.orr .r1 .r2 .r3) ∧
    reads 0x6CD1 0 (.xor .r1 .r2 .r3) ∧
    reads 0x6F1A 0 (.mul .r2 .r3 .r4) ∧
    reads 0x711A 0 (.div .r2 .r3 .r4) ∧
    reads 0x72D1 0 (.asl .r1 .r2 .r3) ∧
    reads 0x74D1 0 (.asr .r1 .r2 .r3) ∧
    reads 0x76D1 0 (.lsr .r1 .r2 .r3) := by decide

theorem test_decode_r3_2 :
    reads 0x78D1 0 (.rtl .r1 .r2 .r3) ∧
    reads 0x7AD1 0 (.rtr .r1 .r2 .r3) ∧
    reads 0x7CD1 0 (.rlc .r1 .r2 .r3) ∧
    reads 0x7ED1 0 (.rrc .r1 .r2 .r3) := by decide

theorem test_decode_m :
    reads 0x8019 2 (.ldw .rd .r1 2) ∧
    reads 0x8089 0x0040 (.stw .id .r1 0x0040) ∧
    reads 0x8101 15 (.ldl .i .r1 15) ∧
    reads 0x8189 0x0040 (.stl .id .r1 0x0040) ∧
    reads 0x8201 15 (.ldh .i .r1 15) ∧
    reads 0x8289 0x0040 (.sth .id .r1 0x0040) := by decide

theorem test_decode_j_1 :
    reads 0xA000 0x0040 (.jmp .r0 .r0 0x0040) ∧
    reads 0xA051 0x0040 (.jeq .r1 .r2 0x0040) ∧
    reads 0xA091 0x0040 (.jne .r1 .r2 0x0040) ∧
    reads 0xA0D1 0x0040 (.jlt .r1 .r2 0x0040) ∧
    reads 0xA111 0x0040 (.jgt .r1 .r2 0x0040) ∧
    reads 0xA151 0x0040 (.jle .r1 .r2 0x0040) ∧
    reads 0xA191 0x0040 (.jge .r1 .r2 0x0040) ∧
    reads 0xA1D1 0x0040 (.jat .r1 .r2 0x0040) ∧
    reads 0xA211 0x0040 (.jbt .r1 .r2 0x0040) ∧
    reads 0xA251 0x0040 (.jae .r1 .r2 0x0040) ∧
    reads 0xA291 0x0040 (.jbe .r1 .r2 0x0040) ∧
    reads 0xA2D1 0x0040 (.jyz .r1 .r2 0x0040) := by decide

theorem test_decode_j_2 :
    reads 0xA311 0x0040 (.jnz .r1 .r2 0x0040) ∧
    reads 0xA351 0x0040 (.jyc .r1 .r2 0x0040) ∧
    reads 0xA391 0x0040 (.jnc .r1 .r2 0x0040) ∧
    reads 0xA3D1 0x0040 (.jyo .r1 .r2 0x0040) ∧
    reads 0xA411 0x0040 (.jno .r1 .r2 0x0040) ∧
    reads 0xA451 0x0040 (.jys .r1 .r2 0x0040) ∧
    reads 0xA491 0x0040 (.jns .r1 .r2 0x0040) ∧
    reads 0xA4D1 0x0040 (.jyp .r1 .r2 0x0040) ∧
    reads 0xA511 0x0040 (.jnp .r1 .r2 0x0040) ∧
    reads 0xA541 0x0040 (.lop .r1 .r0 0x0040) ∧
    reads 0xA580 0x0040 (.cal .r0 .r0 0x0040) ∧
    reads 0xA5C0 0x0040 (.ret .r0 .r0) := by decide

theorem test_decode_r2i :
    reads 0xC011 15 (.adi .r1 .r2 15) ∧
    reads 0xC051 15 (.sbi .r1 .r2 15) ∧
    reads 0xC091 15 (.aci .r1 .r2 15) ∧
    reads 0xC0D1 15 (.sib .r1 .r2 15) ∧
    reads 0xC111 15 (.ani .r1 .r2 15) ∧
    reads 0xC151 15 (.ori .r1 .r2 15) ∧
    reads 0xC191 15 (.xri .r1 .r2 15) := by decide

/-- The pseudo-instructions: their words are those of ADD, ADI and ASL. -/
theorem test_decode_pseudo :
    encode (.mov .r1 .r2) = [0x6011] ∧ encode (.mvi .r1 15) = [0xC001, 15] ∧ encode (.lsl .r1 .r2 .r3) = [0x72D1] ∧
    reads 0x6011 0 (.add .r1 .r2 .r0) ∧ reads 0xC001 15 (.adi .r1 .r0 15) := by decide

/-- One word of each type bit by bit, with operands that differ in every field. -/
theorem test_decode_bits :
    reads 0b0010000000010110 0 (.psw .r6) ∧ reads 0b0100010110101011 0 (.neg .r3 .r5) ∧
    reads 0b0111000110011101 0 (.div .r5 .r3 .r6) ∧ reads 0b1000000011111001 4 (.stw .sxf .r1 4) ∧
    reads 0b1010001010111100 0xBEEF (.jbe .r4 .r7 0xBEEF) ∧ reads 0b1100000011010110 0x8001 (.sib .r6 .r2 0x8001) := by
  decide

theorem test_decode_ignored_bits :
    decode 0x0007 0 = .ok .hlt ∧ decode 0x000F 0 = .ok .nop ∧ decode 0xA5C0 0x1234 = .ok (.ret .r0 .r0) := by decide

/-- The first word without a meaning behind the last with one, for every type, and type 111. -/
theorem test_decode_rejects :
    decode 0x0010 0 = .error .unassignedOpcode ∧ decode 0x1FF8 0 = .error .unassignedOpcode ∧
    decode 0x2040 0 = .error .unassignedOpcode ∧ decode 0x4651 0 = .error .unassignedOpcode ∧
    decode 0x5FFF 0 = .error .unassignedOpcode ∧ decode 0x8300 0 = .error .unassignedOpcode ∧
    decode 0x9F80 0 = .error .unassignedOpcode ∧ decode 0xA600 0 = .error .unassignedOpcode ∧
    decode 0xC1D1 15 = .error .unassignedOpcode ∧ decode 0xE000 0 = .error .undefinedType ∧
    decode 0xFFFF 0 = .error .undefinedType := by decide

theorem test_table_words :
    decodeTableWord 16 0x60D1 = some (.add .r1 .r2 .r3) ∧ decodeTableWord 32 0x0002_8019 = some (.ldw .rd .r1 2) ∧
    decodeTableWord 16 0xA051 = some (.jeq .r1 .r2 0) ∧ decodeTableWord 16 0xE000 = none := by decide

/-- The words are placed where the next step fetches, and that step runs them, halted before or not. -/
theorem test_with_fetch_word :
    seen (step (State.reset.withFetchWord 32 0xBEEF_8001)) (fun t => (t.reg .r1, t.ip)) = some (0xBEEF, 2) ∧
    seen (step (State.reset.halt.withFetchWord 16 0x0008)) (·.ip) = some 1 := by decide

/-! ### One step of every instruction -/

theorem test_hlt :
    seen (run start 0x0005)
      (fun t => (t.halted, t.ip)) = some (true, 0x0010) := by decide

theorem test_nop :
    seen (run start 0x0008)
      (·.ip) = some (0x0011) ∧
    seen (run (start.setIp 0xFFFF) 0x0008)
      (·.ip) = some (0x0000) := by decide

theorem test_ldw :
    seen (run2 ((start.setReg .r7 0x0005).setCell 0x0205 0x5555) 0x802F 0x0200)
      (fun t => (t.reg .r7, t.ip)) = some (0x5555, 0x0012) ∧
    seen (run2 ((start.setReg .r7 0x0201).setCell 0x0200 0x1111) 0x8029 0xFFFF)
      (fun t => (t.reg .r1, t.ip)) = some (0x1111, 0x0012) := by decide

theorem test_stw :
    seen (run2 ((start.setReg .r1 0x1234).setReg .r2 0x0200) 0x8099 0x0002)
      (fun t => (t.cell 0x0200, t.ip)) = some (some 0x1234, 0x0012) ∧
    seen (run2 (start.setReg .r1 0x1234) 0x8089 0x0011)
      (fun t => (t.cell 0x0011, t.ip)) = some (some 0x1234, 0x0012) := by decide

theorem test_ldl :
    seen (run2 (start.setReg .r1 0xABCD) 0x8101 0x1234)
      (fun t => (t.reg .r1, t.ip)) = some (0xAB34, 0x0012) ∧
    seen (run2 ((start.setReg .r1 0xABCD).setCell 0x0200 0x1122) 0x8109 0x0200)
      (fun t => (t.reg .r1, t.ip)) = some (0xAB22, 0x0012) := by decide

theorem test_stl :
    seen (run2 ((start.setReg .r1 0x1234).setCell 0x0100 0xABCD) 0x8189 0x0100)
      (fun t => (t.cell 0x0100, t.ip)) = some (some 0xAB34, 0x0012) := by decide

theorem test_ldh :
    seen (run2 (start.setReg .r1 0xABCD) 0x8201 0x000F)
      (fun t => (t.reg .r1, t.ip)) = some (0x0FCD, 0x0012) ∧
    seen (run2 (start.setReg .r1 0xABCD) 0x8201 0x1234)
      (fun t => (t.reg .r1, t.ip)) = some (0x34CD, 0x0012) := by decide

theorem test_sth :
    seen (run2 ((start.setReg .r1 0x1234).setCell 0x0100 0xABCD) 0x8289 0x0100)
      (fun t => (t.cell 0x0100, t.ip)) = some (some 0x34CD, 0x0012) := by decide

theorem test_xch :
    seen (run ((start.setReg .r1 0x1111).setReg .r2 0x2222) 0x4011)
      (fun t => (t.reg .r1, t.reg .r2, t.ip)) = some (0x2222, 0x1111, 0x0011) ∧
    seen (run (start.setReg .r2 0x2222) 0x4010)
      (fun t => (t.reg .r2, t.ip)) = some (0x0000, 0x0011) := by decide

theorem test_add :
    seen (run ((start.setReg .r2 0xFFFF).setReg .r3 0x0002) 0x60D1)
      (fun t => (t.reg .r1, t.ip)) = some (0x0001, 0x0011) ∧
    seen (run (start.setReg .r1 0x8000) 0x6049)
      (fun t => (t.reg .r1, t.ip)) = some (0x0000, 0x0011) := by decide

theorem test_adc :
    seen (run (((start.setReg .r2 0xFFFF).setReg .r3 0x0000).setFlags (flags 0 0 0 1 0)) 0x62D1)
      (fun t => (t.reg .r1, t.ip)) = some (0x0000, 0x0011) ∧
    seen (run (((start.setReg .r2 0x0005).setReg .r3 0x0003).setFlags (flags 0 0 0 0 0)) 0x62D1)
      (fun t => (t.reg .r1, t.ip)) = some (0x0008, 0x0011) := by decide

theorem test_sub :
    seen (run ((start.setReg .r2 0x0003).setReg .r3 0x0005) 0x64D1)
      (fun t => (t.reg .r1, t.ip)) = some (0xFFFE, 0x0011) := by decide

theorem test_sbb :
    seen (run (((start.setReg .r2 0x0000).setReg .r3 0x0000).setFlags (flags 0 0 0 1 0)) 0x66D1)
      (fun t => (t.reg .r1, t.ip)) = some (0xFFFF, 0x0011) ∧
    seen (run (((start.setReg .r2 0x0010).setReg .r3 0x0001).setFlags (flags 0 0 0 0 0)) 0x66D1)
      (fun t => (t.reg .r1, t.ip)) = some (0x000F, 0x0011) := by decide

theorem test_and :
    seen (run ((start.setReg .r2 0xFF00).setReg .r3 0x0FF0) 0x68D1)
      (fun t => (t.reg .r1, t.ip)) = some (0x0F00, 0x0011) := by decide

theorem test_orr :
    seen (run ((start.setReg .r2 0xFF00).setReg .r3 0x0FF0) 0x6AD1)
      (fun t => (t.reg .r1, t.ip)) = some (0xFFF0, 0x0011) := by decide

theorem test_xor :
    seen (run ((start.setReg .r2 0xFF00).setReg .r3 0x0FF0) 0x6CD1)
      (fun t => (t.reg .r1, t.ip)) = some (0xF0F0, 0x0011) := by decide

theorem test_not :
    seen (run (start.setReg .r2 0x00FF) 0x4551)
      (fun t => (t.reg .r1, t.ip)) = some (0xFF00, 0x0011) := by decide

theorem test_neg :
    seen (run (start.setReg .r2 0x0001) 0x4591)
      (fun t => (t.reg .r1, t.ip)) = some (0xFFFF, 0x0011) ∧
    seen (run (start.setReg .r2 0x8000) 0x4591)
      (fun t => (t.reg .r1, t.ip)) = some (0x8000, 0x0011) := by decide

theorem test_adi :
    seen (run2 (start.setReg .r2 0x0010) 0xC011 0x000F)
      (fun t => (t.reg .r1, t.ip)) = some (0x001F, 0x0012) ∧
    seen (run2 (start.setReg .r2 0x0010) 0xC011 0xFFFF)
      (fun t => (t.reg .r1, t.ip)) = some (0x000F, 0x0012) := by decide

theorem test_sbi :
    seen (run2 (start.setReg .r2 0x0000) 0xC051 0x000F)
      (fun t => (t.reg .r1, t.ip)) = some (0xFFF1, 0x0012) := by decide

theorem test_aci :
    seen (run2 ((start.setReg .r2 0x0010).setFlags (flags 0 0 0 1 0)) 0xC091 0x000F)
      (fun t => (t.reg .r1, t.ip)) = some (0x0020, 0x0012) := by decide

theorem test_sib :
    seen (run2 ((start.setReg .r2 0x0010).setFlags (flags 0 0 0 1 0)) 0xC0D1 0x000F)
      (fun t => (t.reg .r1, t.ip)) = some (0x0000, 0x0012) := by decide

theorem test_ani :
    seen (run2 (start.setReg .r2 0x1234) 0xC111 0x000F)
      (fun t => (t.reg .r1, t.ip)) = some (0x0004, 0x0012) := by decide

theorem test_ori :
    seen (run2 (start.setReg .r2 0x1230) 0xC151 0x000F)
      (fun t => (t.reg .r1, t.ip)) = some (0x123F, 0x0012) := by decide

theorem test_xri :
    seen (run2 (start.setReg .r2 0x1234) 0xC191 0x000F)
      (fun t => (t.reg .r1, t.ip)) = some (0x123B, 0x0012) := by decide

theorem test_mul :
    seen (run ((start.setReg .r3 0xFFFF).setReg .r4 0xFFFF) 0x6F1A)
      (fun t => (t.reg .r1, t.reg .r2, t.ip)) = some (0xFFFE, 0x0001, 0x0011) ∧
    seen (run ((start.setReg .r1 0x0100).setReg .r2 0x0300) 0x6E8A)
      (fun t => (t.reg .r1, t.reg .r2, t.ip)) = some (0x0003, 0x0000, 0x0011) := by decide

theorem test_div :
    seen (run (((start.setReg .r3 0x0001).setReg .r4 0x0000).setReg .r5 0x0002) 0x7162)
      (fun t => (t.reg .r1, t.reg .r2, t.ip)) = some (0x0000, 0x8000, 0x0011) ∧
    seen (run (((start.setReg .r3 0x0001).setReg .r4 0xFFFF).setReg .r5 0x0002) 0x7162)
      (fun t => (t.reg .r1, t.reg .r2, t.ip)) = some (0x0001, 0xFFFF, 0x0011) := by decide

theorem test_asl :
    seen (run ((start.setReg .r2 0x8421).setReg .r3 0x000F) 0x72D1)
      (fun t => (t.reg .r1, t.ip)) = some (0x8000, 0x0011) ∧
    seen (run ((start.setReg .r2 0x8421).setReg .r3 0x0011) 0x72D1)
      (fun t => (t.reg .r1, t.ip)) = some (0x0000, 0x0011) := by decide

theorem test_asr :
    seen (run ((start.setReg .r2 0x8421).setReg .r3 0x0004) 0x74D1)
      (fun t => (t.reg .r1, t.ip)) = some (0xF842, 0x0011) ∧
    seen (run ((start.setReg .r2 0x8421).setReg .r3 0x0010) 0x74D1)
      (fun t => (t.reg .r1, t.ip)) = some (0xFFFF, 0x0011) := by decide

theorem test_lsr :
    seen (run ((start.setReg .r2 0x8421).setReg .r3 0x0004) 0x76D1)
      (fun t => (t.reg .r1, t.ip)) = some (0x0842, 0x0011) ∧
    seen (run ((start.setReg .r2 0x8421).setReg .r3 0xFFFF) 0x76D1)
      (fun t => (t.reg .r1, t.ip)) = some (0x0000, 0x0011) := by decide

theorem test_rtl :
    seen (run ((start.setReg .r2 0x8421).setReg .r3 0x0004) 0x78D1)
      (fun t => (t.reg .r1, t.ip)) = some (0x4218, 0x0011) ∧
    seen (run ((start.setReg .r2 0x8421).setReg .r3 0x0011) 0x78D1)
      (fun t => (t.reg .r1, t.ip)) = some (0x0843, 0x0011) := by decide

theorem test_rtr :
    seen (run ((start.setReg .r2 0x8421).setReg .r3 0x0004) 0x7AD1)
      (fun t => (t.reg .r1, t.ip)) = some (0x1842, 0x0011) ∧
    seen (run ((start.setReg .r2 0x8421).setReg .r3 0x0011) 0x7AD1)
      (fun t => (t.reg .r1, t.ip)) = some (0xC210, 0x0011) := by decide

theorem test_rlc :
    seen (run (((start.setReg .r2 0x8421).setReg .r3 0x0004).setFlags (flags 0 0 0 1 0)) 0x7CD1)
      (fun t => (t.reg .r1, t.ip)) = some (0x421C, 0x0011) ∧
    seen (run (((start.setReg .r2 0x8421).setReg .r3 0x0010).setFlags (flags 0 0 0 1 0)) 0x7CD1)
      (fun t => (t.reg .r1, t.ip)) = some (0xC210, 0x0011) := by decide

theorem test_rrc :
    seen (run (((start.setReg .r2 0x8421).setReg .r3 0x0004).setFlags (flags 0 0 0 1 0)) 0x7ED1)
      (fun t => (t.reg .r1, t.ip)) = some (0x3842, 0x0011) ∧
    seen (run (((start.setReg .r2 0x8421).setReg .r3 0x0010).setFlags (flags 0 0 0 1 0)) 0x7ED1)
      (fun t => (t.reg .r1, t.ip)) = some (0x0843, 0x0011) := by decide

theorem test_cmp :
    seen (run ((start.setReg .r1 0x8000).setReg .r2 0x0001) 0x45D1)
      (fun t => (t.fl, t.ip)) = some ((flags 0 0 1 0 0), 0x0011) ∧
    seen (run ((start.setReg .r1 0x0000).setReg .r2 0x8000) 0x45D1)
      (fun t => (t.fl, t.ip)) = some ((flags 0 1 1 1 0), 0x0011) := by decide

theorem test_tst :
    seen (run ((start.setReg .r1 0xFFFF).setReg .r2 0x8000) 0x4611)
      (fun t => (t.fl, t.ip)) = some ((flags 0 1 0 0 0), 0x0011) ∧
    seen (run ((start.setReg .r1 0x0007).setReg .r2 0x0003) 0x4611)
      (fun t => (t.fl, t.ip)) = some ((flags 0 0 0 0 1), 0x0011) := by decide

theorem test_flg :
    seen (run (start.setReg .r1 0x0013) 0x2001)
      (fun t => (t.fl, t.ip)) = some ((flags 1 0 0 1 1), 0x0011) ∧
    seen (run (start.setReg .r1 0x0010) 0x2001)
      (fun t => (t.fl, t.ip)) = some ((flags 0 0 0 0 1), 0x0011) := by decide

theorem test_flr :
    seen (run (start.setReg .r1 0x8001) 0x2009)
      (fun t => (t.fl, t.ip)) = some ((flags 0 1 0 0 1), 0x0011) ∧
    seen (run (start.setReg .r1 0x7FFF) 0x2009)
      (fun t => (t.fl, t.ip)) = some ((flags 0 0 0 0 0), 0x0011) := by decide

theorem test_jmp :
    seen (run2 (start.setFlags (flags 1 0 1 0 1)) 0xA000 0x0040)
      (fun t => (t.fl, t.ip)) = some ((flags 1 0 1 0 1), 0x0040) ∧
    seen (run2 ((start.setReg .r1 0x0003).setReg .r2 0x0005) 0xA011 0x0040)
      (fun t => (t.fl, t.ip)) = some ((flags 0 1 0 1 0), 0x0040) := by decide

theorem test_lop :
    seen (run2 (start.setReg .r1 0x0001) 0xA541 0x0040)
      (fun t => (t.reg .r1, t.fl, t.ip)) = some (0x0000, (flags 0 0 0 0 0), 0x0040) ∧
    seen (run2 (start.setReg .r1 0x0000) 0xA541 0x0040)
      (fun t => (t.reg .r1, t.fl, t.ip)) = some (0xFFFF, (flags 1 0 0 0 1), 0x0012) := by decide

theorem test_psw :
    seen (run ((start.setReg .r1 0xBEEF).setSp 0x0100) 0x2011)
      (fun t => (t.cell 0x00FF, t.sp, t.ip)) = some (some 0xBEEF, 0x00FF, 0x0011) ∧
    seen (run ((start.setReg .r1 0xBEEF).setSp 0x0000) 0x2011)
      (fun t => (t.cell 0xFFFF, t.sp, t.ip)) = some (some 0xBEEF, 0xFFFF, 0x0011) := by decide

theorem test_psl :
    seen (run ((start.setReg .r1 0xBEEF).setSp 0x0100) 0x2019)
      (fun t => (t.cell 0x00FF, t.sp, t.ip)) = some (some 0x00EF, 0x00FF, 0x0011) := by decide

theorem test_psh :
    seen (run ((start.setReg .r1 0xBEEF).setSp 0x0100) 0x2021)
      (fun t => (t.cell 0x00FF, t.sp, t.ip)) = some (some 0x00BE, 0x00FF, 0x0011) := by decide

theorem test_ppw :
    seen (run ((start.setCell 0x00FF 0xBEEF).setSp 0x00FF) 0x2029)
      (fun t => (t.reg .r1, t.sp, t.ip)) = some (0xBEEF, 0x0100, 0x0011) ∧
    seen (run ((start.setCell 0xFFFF 0xBEEF).setSp 0xFFFF) 0x2029)
      (fun t => (t.reg .r1, t.sp, t.ip)) = some (0xBEEF, 0x0000, 0x0011) := by decide

theorem test_ppl :
    seen (run (((start.setReg .r1 0x1234).setCell 0x00FF 0xBEEF).setSp 0x00FF) 0x2031)
      (fun t => (t.reg .r1, t.sp, t.ip)) = some (0x12EF, 0x0100, 0x0011) := by decide

theorem test_pph :
    seen (run (((start.setReg .r1 0x1234).setCell 0x00FF 0xBEEF).setSp 0x00FF) 0x2039)
      (fun t => (t.reg .r1, t.sp, t.ip)) = some (0xEF34, 0x0100, 0x0011) := by decide

theorem test_cal :
    seen (run2 ((start.setFlags (flags 1 0 1 0 1)).setSp 0x0100) 0xA580 0x0040)
      (fun t => (t.cell 0x00FF, t.sp, t.fl, t.ip)) = some (some 0x0012, 0x00FF, (flags 1 0 1 0 1), 0x0040) ∧
    seen (run2 (((start.setReg .r1 0x0001).setReg .r2 0x0001).setSp 0x0100) 0xA591 0x0040)
      (fun t => (t.cell 0x00FF, t.sp, t.fl, t.ip)) = some (some 0x0012, 0x00FF, (flags 1 0 0 0 1), 0x0040) := by decide

theorem test_ret :
    seen (run2 (((start.setCell 0x00FF 0x0012).setFlags (flags 0 0 0 0 0)).setSp 0x00FF) 0xA5C0 0xFFFF)
      (fun t => (t.sp, t.fl, t.ip)) = some (0x0100, (flags 0 0 0 0 0), 0x0012) := by decide

theorem test_mul_div_stop :
    refusalOf (run ((start.setReg .r2 0x0002).setReg .r3 0x0003) 0x6ED0) = some .noRegisterBeforeR0 ∧
    faultOf (run ((start.setReg .r3 0x0000).setReg .r4 0x0005) 0x7022) = some .divideByZero ∧
    refusalOf (run (((start.setReg .r3 0x0000).setReg .r4 0x0005).setReg .r5 0x0001) 0x7160) = some .noRegisterBeforeR0 ∧
    refusalOf (run (start.setReg .r5 0x0001) 0x7142) = some .noRegisterBeforeR0 := by decide

theorem test_store_to_immediate :
    refusalOf (run2 (start.setReg .r1 0x1234) 0x8081 0x0100) = some .storeToImmediate ∧
    refusalOf (run2 (start.setReg .r1 0x1234) 0x8181 0x0100) = some .storeToImmediate ∧
    refusalOf (run2 ((start.setReg .r2 0x0200).setCell 0x0200 0x1111) 0x8019 0x000A) = some .reservedOperandBits := by decide

theorem test_modes_without_stack :
    seen (run2 start 0x8001 0x1234)
      (fun t => (t.reg .r1, t.ip)) = some (0x1234, 0x0012) ∧
    seen (run2 (start.setCell 0x0200 0x1111) 0x8009 0x0200)
      (fun t => (t.reg .r1, t.ip)) = some (0x1111, 0x0012) ∧
    seen (run2 ((start.setCell 0x0020 0x0200).setCell 0x0200 0x1111) 0x8011 0x0020)
      (fun t => (t.reg .r1, t.ip)) = some (0x1111, 0x0012) ∧
    seen (run2 ((start.setReg .r2 0x0200).setCell 0x0200 0x1111) 0x8019 0x0002)
      (fun t => (t.reg .r1, t.ip)) = some (0x1111, 0x0012) ∧
    seen (run2 (((start.setReg .r2 0x0020).setCell 0x0020 0x0200).setCell 0x0200 0x1111) 0x8021 0x0002)
      (fun t => (t.reg .r1, t.ip)) = some (0x1111, 0x0012) ∧
    seen (run2 ((start.setReg .r7 0x0005).setCell 0x0205 0x5555) 0x8029 0x0200)
      (fun t => (t.reg .r1, t.ip)) = some (0x5555, 0x0012) ∧
    seen (run2 (((start.setReg .r7 0x0004).setCell 0x0201 0x2222).setCell 0x0304 0x0201) 0x8031 0x0300)
      (fun t => (t.reg .r1, t.ip)) = some (0x2222, 0x0012) ∧
    seen (run2 (((start.setReg .r7 0x0300).setCell 0x0201 0x2222).setCell 0x0300 0x0200) 0x8039 0x0001)
      (fun t => (t.reg .r1, t.ip)) = some (0x2222, 0x0012) ∧
    seen (run2 (((start.setReg .r7 0x0005).setCell 0x0205 0x5555).setCell 0x0300 0x0200) 0x8041 0x0300)
      (fun t => (t.reg .r1, t.ip)) = some (0x5555, 0x0012) := by decide

theorem test_modes_with_stack :
    seen (run2 ((start.setCell 0x0100 0x7777).setSp 0x00FE) 0x8049 0x0002)
      (fun t => (t.reg .r1, t.ip)) = some (0x7777, 0x0012) ∧
    seen (run2 (((start.setCell 0x0100 0x0200).setCell 0x0200 0x1111).setSp 0x00FE) 0x8051 0x0002)
      (fun t => (t.reg .r1, t.ip)) = some (0x1111, 0x0012) ∧
    seen (run2 (((start.setCell 0x00FE 0x0200).setCell 0x0201 0x2222).setSp 0x00FE) 0x8059 0x0001)
      (fun t => (t.reg .r1, t.ip)) = some (0x2222, 0x0012) ∧
    seen (run2 (((start.setReg .r7 0x0001).setCell 0x0100 0x7777).setSp 0x00FE) 0x8061 0x0001)
      (fun t => (t.reg .r1, t.ip)) = some (0x7777, 0x0012) ∧
    seen (run2 ((((start.setReg .r7 0x0001).setCell 0x0100 0x0200).setCell 0x0200 0x1111).setSp 0x00FE) 0x8069 0x0001)
      (fun t => (t.reg .r1, t.ip)) = some (0x1111, 0x0012) ∧
    seen (run2 ((((start.setReg .r7 0x0002).setCell 0x0100 0x0200).setCell 0x0201 0x2222).setSp 0x00FE) 0x8071 0x0001)
      (fun t => (t.reg .r1, t.ip)) = some (0x2222, 0x0012) ∧
    seen (run2 ((((start.setReg .r7 0x0005).setCell 0x0100 0x0200).setCell 0x0205 0x5555).setSp 0x00FE) 0x8079 0x0002)
      (fun t => (t.reg .r1, t.ip)) = some (0x5555, 0x0012) := by decide

theorem test_xeq :
    exchanged (flags 1 0 0 0 1) 0x4051 = some (0x2222, 0x2222, (flags 1 0 0 0 1), 0x0011) ∧
    exchanged (flags 0 1 0 1 0) 0x4051 = some (0x1111, 0x2222, (flags 0 1 0 1 0), 0x0011) := by decide

theorem test_xne :
    exchanged (flags 0 1 0 1 0) 0x4091 = some (0x2222, 0x2222, (flags 0 1 0 1 0), 0x0011) ∧
    exchanged (flags 1 0 0 0 1) 0x4091 = some (0x1111, 0x2222, (flags 1 0 0 0 1), 0x0011) := by decide

theorem test_xlt :
    exchanged (flags 0 1 0 1 0) 0x40D1 = some (0x2222, 0x2222, (flags 0 1 0 1 0), 0x0011) ∧
    exchanged (flags 0 0 0 0 0) 0x40D1 = some (0x1111, 0x2222, (flags 0 0 0 0 0), 0x0011) := by decide

theorem test_xgt :
    exchanged (flags 0 0 0 0 0) 0x4111 = some (0x2222, 0x2222, (flags 0 0 0 0 0), 0x0011) ∧
    exchanged (flags 0 0 1 0 0) 0x4111 = some (0x1111, 0x2222, (flags 0 0 1 0 0), 0x0011) := by decide

theorem test_xle :
    exchanged (flags 0 1 0 1 0) 0x4151 = some (0x2222, 0x2222, (flags 0 1 0 1 0), 0x0011) ∧
    exchanged (flags 0 0 0 0 0) 0x4151 = some (0x1111, 0x2222, (flags 0 0 0 0 0), 0x0011) := by decide

theorem test_xge :
    exchanged (flags 0 0 0 0 0) 0x4191 = some (0x2222, 0x2222, (flags 0 0 0 0 0), 0x0011) ∧
    exchanged (flags 0 1 0 1 0) 0x4191 = some (0x1111, 0x2222, (flags 0 1 0 1 0), 0x0011) := by decide

theorem test_xat :
    exchanged (flags 0 0 0 0 0) 0x41D1 = some (0x2222, 0x2222, (flags 0 0 0 0 0), 0x0011) ∧
    exchanged (flags 0 1 0 1 0) 0x41D1 = some (0x1111, 0x2222, (flags 0 1 0 1 0), 0x0011) := by decide

theorem test_xbt :
    exchanged (flags 0 1 0 1 0) 0x4211 = some (0x2222, 0x2222, (flags 0 1 0 1 0), 0x0011) ∧
    exchanged (flags 0 0 0 0 0) 0x4211 = some (0x1111, 0x2222, (flags 0 0 0 0 0), 0x0011) := by decide

theorem test_xae :
    exchanged (flags 0 0 0 0 0) 0x4251 = some (0x2222, 0x2222, (flags 0 0 0 0 0), 0x0011) ∧
    exchanged (flags 0 1 0 1 0) 0x4251 = some (0x1111, 0x2222, (flags 0 1 0 1 0), 0x0011) := by decide

theorem test_xbe :
    exchanged (flags 0 1 0 1 0) 0x4291 = some (0x2222, 0x2222, (flags 0 1 0 1 0), 0x0011) ∧
    exchanged (flags 0 0 0 0 0) 0x4291 = some (0x1111, 0x2222, (flags 0 0 0 0 0), 0x0011) := by decide

theorem test_xyz :
    exchanged (flags 1 0 0 0 1) 0x42D1 = some (0x2222, 0x2222, (flags 1 0 0 0 1), 0x0011) ∧
    exchanged (flags 0 1 0 1 0) 0x42D1 = some (0x1111, 0x2222, (flags 0 1 0 1 0), 0x0011) := by decide

theorem test_xnz :
    exchanged (flags 0 1 0 1 0) 0x4311 = some (0x2222, 0x2222, (flags 0 1 0 1 0), 0x0011) ∧
    exchanged (flags 1 0 0 0 1) 0x4311 = some (0x1111, 0x2222, (flags 1 0 0 0 1), 0x0011) := by decide

theorem test_xyc :
    exchanged (flags 0 1 0 1 0) 0x4351 = some (0x2222, 0x2222, (flags 0 1 0 1 0), 0x0011) ∧
    exchanged (flags 0 0 0 0 0) 0x4351 = some (0x1111, 0x2222, (flags 0 0 0 0 0), 0x0011) := by decide

theorem test_xnc :
    exchanged (flags 0 0 0 0 0) 0x4391 = some (0x2222, 0x2222, (flags 0 0 0 0 0), 0x0011) ∧
    exchanged (flags 0 1 0 1 0) 0x4391 = some (0x1111, 0x2222, (flags 0 1 0 1 0), 0x0011) := by decide

theorem test_xyo :
    exchanged (flags 0 0 1 0 0) 0x43D1 = some (0x2222, 0x2222, (flags 0 0 1 0 0), 0x0011) ∧
    exchanged (flags 0 1 0 1 0) 0x43D1 = some (0x1111, 0x2222, (flags 0 1 0 1 0), 0x0011) := by decide

theorem test_xno :
    exchanged (flags 0 1 0 1 0) 0x4411 = some (0x2222, 0x2222, (flags 0 1 0 1 0), 0x0011) ∧
    exchanged (flags 0 0 1 0 0) 0x4411 = some (0x1111, 0x2222, (flags 0 0 1 0 0), 0x0011) := by decide

theorem test_xys :
    exchanged (flags 0 1 0 1 0) 0x4451 = some (0x2222, 0x2222, (flags 0 1 0 1 0), 0x0011) ∧
    exchanged (flags 0 0 0 0 0) 0x4451 = some (0x1111, 0x2222, (flags 0 0 0 0 0), 0x0011) := by decide

theorem test_xns :
    exchanged (flags 0 0 0 0 0) 0x4491 = some (0x2222, 0x2222, (flags 0 0 0 0 0), 0x0011) ∧
    exchanged (flags 0 1 0 1 0) 0x4491 = some (0x1111, 0x2222, (flags 0 1 0 1 0), 0x0011) := by decide

theorem test_xyp :
    exchanged (flags 1 0 0 0 1) 0x44D1 = some (0x2222, 0x2222, (flags 1 0 0 0 1), 0x0011) ∧
    exchanged (flags 0 1 0 1 0) 0x44D1 = some (0x1111, 0x2222, (flags 0 1 0 1 0), 0x0011) := by decide

theorem test_xnp :
    exchanged (flags 0 1 0 1 0) 0x4511 = some (0x2222, 0x2222, (flags 0 1 0 1 0), 0x0011) ∧
    exchanged (flags 1 0 0 0 1) 0x4511 = some (0x1111, 0x2222, (flags 1 0 0 0 1), 0x0011) := by decide

theorem test_jeq :
    jumped 0x0005 0x0005 0xA051 = some ((flags 1 0 0 0 1), 0x0040) ∧
    jumped 0x0003 0x0005 0xA051 = some ((flags 0 1 0 1 0), 0x0012) := by decide

theorem test_jne :
    jumped 0x0003 0x0005 0xA091 = some ((flags 0 1 0 1 0), 0x0040) ∧
    jumped 0x0005 0x0005 0xA091 = some ((flags 1 0 0 0 1), 0x0012) := by decide

theorem test_jlt :
    jumped 0x0003 0x0005 0xA0D1 = some ((flags 0 1 0 1 0), 0x0040) ∧
    jumped 0x0005 0x0003 0xA0D1 = some ((flags 0 0 0 0 0), 0x0012) := by decide

theorem test_jgt :
    jumped 0x7FFF 0x8000 0xA111 = some ((flags 0 1 1 1 1), 0x0040) ∧
    jumped 0x8000 0x7FFF 0xA111 = some ((flags 0 0 1 0 0), 0x0012) := by decide

theorem test_jle :
    jumped 0x0003 0x0005 0xA151 = some ((flags 0 1 0 1 0), 0x0040) ∧
    jumped 0x0005 0x0003 0xA151 = some ((flags 0 0 0 0 0), 0x0012) := by decide

theorem test_jge :
    jumped 0x0005 0x0003 0xA191 = some ((flags 0 0 0 0 0), 0x0040) ∧
    jumped 0x0003 0x0005 0xA191 = some ((flags 0 1 0 1 0), 0x0012) := by decide

theorem test_jat :
    jumped 0x0005 0x0003 0xA1D1 = some ((flags 0 0 0 0 0), 0x0040) ∧
    jumped 0x0003 0x0005 0xA1D1 = some ((flags 0 1 0 1 0), 0x0012) := by decide

theorem test_jbt :
    jumped 0x0003 0x0005 0xA211 = some ((flags 0 1 0 1 0), 0x0040) ∧
    jumped 0x0005 0x0003 0xA211 = some ((flags 0 0 0 0 0), 0x0012) := by decide

theorem test_jae :
    jumped 0x0005 0x0003 0xA251 = some ((flags 0 0 0 0 0), 0x0040) ∧
    jumped 0x0003 0x0005 0xA251 = some ((flags 0 1 0 1 0), 0x0012) := by decide

theorem test_jbe :
    jumped 0x0003 0x0005 0xA291 = some ((flags 0 1 0 1 0), 0x0040) ∧
    jumped 0x0005 0x0003 0xA291 = some ((flags 0 0 0 0 0), 0x0012) := by decide

theorem test_jyz :
    jumped 0x0005 0x0005 0xA2D1 = some ((flags 1 0 0 0 1), 0x0040) ∧
    jumped 0x0003 0x0005 0xA2D1 = some ((flags 0 1 0 1 0), 0x0012) := by decide

theorem test_jnz :
    jumped 0x0003 0x0005 0xA311 = some ((flags 0 1 0 1 0), 0x0040) ∧
    jumped 0x0005 0x0005 0xA311 = some ((flags 1 0 0 0 1), 0x0012) := by decide

theorem test_jyc :
    jumped 0x0003 0x0005 0xA351 = some ((flags 0 1 0 1 0), 0x0040) ∧
    jumped 0x0005 0x0003 0xA351 = some ((flags 0 0 0 0 0), 0x0012) := by decide

theorem test_jnc :
    jumped 0x0005 0x0003 0xA391 = some ((flags 0 0 0 0 0), 0x0040) ∧
    jumped 0x0003 0x0005 0xA391 = some ((flags 0 1 0 1 0), 0x0012) := by decide

theorem test_jyo :
    jumped 0x8000 0x0001 0xA3D1 = some ((flags 0 0 1 0 0), 0x0040) ∧
    jumped 0x0003 0x0005 0xA3D1 = some ((flags 0 1 0 1 0), 0x0012) := by decide

theorem test_jno :
    jumped 0x0003 0x0005 0xA411 = some ((flags 0 1 0 1 0), 0x0040) ∧
    jumped 0x8000 0x0001 0xA411 = some ((flags 0 0 1 0 0), 0x0012) := by decide

theorem test_jys :
    jumped 0x0003 0x0005 0xA451 = some ((flags 0 1 0 1 0), 0x0040) ∧
    jumped 0x0005 0x0003 0xA451 = some ((flags 0 0 0 0 0), 0x0012) := by decide

theorem test_jns :
    jumped 0x0005 0x0003 0xA491 = some ((flags 0 0 0 0 0), 0x0040) ∧
    jumped 0x0003 0x0005 0xA491 = some ((flags 0 1 0 1 0), 0x0012) := by decide

theorem test_jyp :
    jumped 0x0005 0x0005 0xA4D1 = some ((flags 1 0 0 0 1), 0x0040) ∧
    jumped 0x0003 0x0005 0xA4D1 = some ((flags 0 1 0 1 0), 0x0012) := by decide

theorem test_jnp :
    jumped 0x0003 0x0005 0xA511 = some ((flags 0 1 0 1 0), 0x0040) ∧
    jumped 0x0005 0x0005 0xA511 = some ((flags 1 0 0 0 1), 0x0012) := by decide

theorem test_mov :
    seen (exec (.mov .r1 .r2) (start.setReg .r2 0xBEEF)) (fun t => (t.reg .r1, t.ip)) = some (0xBEEF, 0x0011) := by decide

theorem test_mvi : seen (exec (.mvi .r1 15) start) (fun t => (t.reg .r1, t.ip)) = some (0x000F, 0x0012) := by decide

theorem test_lsl :
    seen (exec (.lsl .r1 .r2 .r3) ((start.setReg .r2 0x1234).setReg .r3 4)) (fun t => (t.reg .r1, t.ip)) =
      some (0x2340, 0x0011) := by decide

/-- A fetch of a cell nothing has loaded, of the first word and of the second, stops. -/
theorem test_unwritten_fetch :
    faultOf (step start) = some .unwrittenRead ∧ faultOf (run start 0xA000) = some .unwrittenRead ∧
    refusalOf (run start 0xE000) = some .undefinedType ∧ refusalOf (run start 0x2040) = some .unassignedOpcode ∧
    faultOf (run start 0xA600) = some .unwrittenRead ∧ refusalOf (run2 start 0xA600 0) = some .unassignedOpcode := by decide

/-- A halted machine stays as it is. -/
theorem test_halted : seen (step start.halt) id = some start.halt := by decide

/-! ### Witnesses: what meets the hypotheses of each obligation that has some -/

/-- EncodeWritesBackEveryDecodedWord: a decoded word for each clause. -/
theorem test_witness_encode_back :
    decode 0x000F 0x1234 = .ok .nop ∧ typeField 0x000F = 0 ∧
    decode 0x60D1 0x1234 = .ok (.add .r1 .r2 .r3) ∧ (typeField 0x60D1).toNat < 4 ∧
    decode 0x8019 2 = .ok (.ldw .rd .r1 2) ∧ 4 ≤ (typeField 0x8019).toNat := by decide

/-- StepExecutesTheDecodedInstruction, for one word and for two. -/
theorem test_witness_step :
    (start.setCell 0x0010 0x60D1).halted = false ∧ (start.setCell 0x0010 0x60D1).cell 0x0010 = some 0x60D1 ∧
    lengthOf 0x60D1 = some 1 ∧ decode 0x60D1 0 = .ok (.add .r1 .r2 .r3) ∧
    ((start.setCell 0x0010 0x8001).setCell 0x0011 7).cell 0x0011 = some 7 ∧
    lengthOf 0x8001 = some 2 ∧ decode 0x8001 7 = .ok (.ldw .i .r1 7) := by decide

/-- StepRefusesWordsWithoutMeaning: type 111 at its lowest and highest word, an unassigned word of one and of two words. -/
theorem test_witness_refused_words :
    (start.setCell 0x0010 0xE000).cell start.ip = some 0xE000 ∧ typeField 0xE000 = 7 ∧ typeField 0xFFFF = 7 ∧
    lengthOf 0x2040 = some 1 ∧ decode 0x2040 0 = .error .unassignedOpcode ∧
    lengthOf 0xA600 = some 2 ∧ decode 0xA600 0 = .error .unassignedOpcode ∧
    ((start.setCell 0x0010 0xA600).setCell 0x0011 0).cell (start.ip + 1) = some 0 := by decide

/-- StepStopsOnlyForListedCauses and RefusedExactlyIfIllFormed: every listed cause occurs. -/
theorem test_witness_stops :
    faultOf (run start 0x700A) = some .divideByZero ∧ faultOf (step start) = some .unwrittenRead ∧
    refusalOf (run start 0xE000) = some .undefinedType ∧ refusalOf (run start 0x0010) = some .unassignedOpcode ∧
    refusalOf (run2 start 0x8081 0) = some .storeToImmediate ∧ refusalOf (run2 start 0x8019 8) = some .reservedOperandBits ∧
    refusalOf (run start 0x6ED0) = some .noRegisterBeforeR0 := by decide

/-- StepKeepsMemoryCanonical: a canonical memory that a step writes. -/
theorem test_witness_invariant :
    (start.setCell 0x0010 0x2011).Inv ∧ (seen (step (start.setCell 0x0010 0x2011)) (·.cell 0xFFFF)) = some (some 0) := by
  decide

/-- WritesOfR0AreDiscarded, PopsLoadFromTheStack and CalPushesAndRetPopsIp: a cell under a load and under SP. -/
theorem test_witness_cells :
    (start.setCell 0x0200 0x1111).cell 0x0200 = some 0x1111 ∧
    ((start.setSp 0xFFFF).setCell 0xFFFF 0xBEEF).cell ((start.setSp 0xFFFF).setCell 0xFFFF 0xBEEF).sp = some 0xBEEF := by
  decide

/-- The state of the next witness: every pointer cell that a mode of operand 0x0100 reads holds 0x0200. -/
def pointers : State :=
  [0x0100, 0x0010, 0x0110, 0x0020, 0x0120, 0x0130, 0x0030].foldl (fun s a => s.setCell a 0x0200)
    ((start.setReg .r7 0x0010).setSp 0x0020)

/-- EffectiveAddressOfEveryMode: one state that meets every clause, r = r7. -/
theorem test_witness_addresses :
    pointers.cell 0x0100 = some 0x0200 ∧ pointers.cell (pointers.reg .r7) = some 0x0200 ∧
    pointers.cell (BitVec.ofNat 16 ((pointers.reg .r7).toNat + 0x0100)) = some 0x0200 ∧
    pointers.cell pointers.sp = some 0x0200 ∧
    pointers.cell (BitVec.ofNat 16 (pointers.sp.toNat + 0x0100)) = some 0x0200 ∧
    pointers.cell (BitVec.ofNat 16 (pointers.sp.toNat + (pointers.reg .r7).toNat + 0x0100)) = some 0x0200 ∧
    pointers.cell (BitVec.ofNat 16 (pointers.sp.toNat + (pointers.reg .r7).toNat)) = some 0x0200 := by decide

/-- MemoryLoadsComplete, WordStoreCompletes and ByteStoresMergeIntoTheCell: a mode without and one with a pointer. -/
theorem test_witness_places :
    seen (effectiveAddress .rd 7 (pointers.setCell 0x0200 5)) id = some 0x0010 ∧
    seen (effectiveAddress .sxf 0x0100 (pointers.setCell 0x0210 5)) id = some 0x0210 ∧
    (pointers.setCell 0x0210 5).cell 0x0210 = some 5 ∧ Mode.sxf ≠ .i := by decide

/-- AddressModeRefusals: the least operand word that is refused, and the greatest. -/
theorem test_witness_reserved : 7 < (8 : Word).toNat ∧ 7 < (0xFFFF : Word).toNat ∧ (Mode.rd = .rd ∨ Mode.rd = .rn) := by
  decide

/-- ReadingAnUnwrittenCellFaults: a running machine with an unwritten cell under each access, the sums at the top of the
address space and behind its wrap; and one where only the second word, behind the wrap, is unwritten. -/
theorem test_witness_unwritten :
    seen (effectiveAddress .id 0xFFFF start) id = some 0xFFFF ∧ start.cell 0xFFFF = none ∧
    start.cell start.sp = none ∧ start.cell (start.reg .r7) = none ∧
    start.cell (BitVec.ofNat 16 ((start.reg .r7).toNat + 0xFFFF)) = none ∧
    start.cell (BitVec.ofNat 16 ((start.setSp 0xFFFF).sp.toNat + 0xFFFF)) = none ∧
    start.cell (BitVec.ofNat 16 (start.sp.toNat + (start.reg .r7).toNat + 0xFFFF)) = none ∧
    start.cell (BitVec.ofNat 16 (start.sp.toNat + (start.reg .r7).toNat)) = none ∧
    start.cell start.ip = none ∧ start.halted = false ∧
    ((start.setIp 0xFFFF).setCell 0xFFFF 0x8000).cell 0xFFFF = some 0x8000 ∧ lengthOf 0x8000 = some 2 ∧
    ((start.setIp 0xFFFF).setCell 0xFFFF 0x8000).cell (0xFFFF + 1) = none := by decide

/-- Log entry 23: a store in mode `i` and an unassigned opcode, each with an unwritten second word. -/
theorem test_unwritten_second_word :
    faultOf (run start 0x8081) = some .unwrittenRead ∧ faultOf (run start 0xDFC0) = some .unwrittenRead := by decide

/-- `70_reset_and_hazards.md` R331: the first push with `RESET_SP` = 0x0000 goes to cell 0xFFFF, the second to 0xFFFE;
with another `RESET_SP` the first goes one cell below it. -/
theorem test_reset_sp :
    seen (run (State.resetAt 0 0) 0x2010) (fun t => (t.sp, t.cell 0xFFFF)) = some (0xFFFF, some 0) ∧
    seen (andThen (run (State.resetAt 0 0) 0x2010) (fun t => run t 0x2010)) (fun t => (t.sp, t.cell 0xFFFE)) =
      some (0xFFFE, some 0) ∧
    seen (run (State.resetAt 0 0x4000) 0x2010) (fun t => (t.sp, t.cell 0x3FFF)) = some (0x3FFF, some 0) := by decide

/-- RetReturnsBehindTheCal: the assembler's forms, and forms whose fields are not r0. -/
theorem test_cal_ret_flags :
    seen (andThen (exec (.cal .r0 .r0 0x40) start) (exec (.ret .r0 .r0))) (fun t => (t.ip, t.fl)) =
      some (0x0012, start.fl) ∧
    seen (andThen (exec (.cal .r1 .r2 0x40) (start.setReg .r2 1)) (exec (.ret .r1 .r1))) (fun t => (t.ip, t.fl.z)) =
      some (0x0012, true) := by decide

/-- ReadReturnsTheLatestWrite: two cells that differ. -/
theorem test_witness_two_cells : (0xFFFF : Word) ≠ 0x0000 := by decide

/-- StoredInstructionRunsNext: a register that holds a one-word instruction. -/
theorem test_witness_stored :
    (start.setReg .r1 0x0008).halted = false ∧ lengthOf ((start.setReg .r1 0x0008).reg .r1) = some 1 ∧
    decode ((start.setReg .r1 0x0008).reg .r1) 0 = .ok .nop := by decide

/-- ExchangesOnOrderConditions and JumpsOnOrderConditions, GreaterThanExchangeAndJump: flags under which each condition
holds and flags under which it does not; a jump with both fields 000 tests them as they stand. -/
theorem test_witness_order_conditions :
    ((flags 1 0 0 0 0).z = true ∧ ¬(flags 0 0 0 0 0).z = true) ∧
    ((flags 0 0 0 0 0).z = false ∧ ¬(flags 1 0 0 0 0).z = false) ∧
    ((flags 0 1 0 0 0).s ≠ (flags 0 1 0 0 0).o ∧ ¬(flags 0 1 1 0 0).s ≠ (flags 0 1 1 0 0).o) ∧
    (((flags 0 0 1 0 0).z = true ∨ (flags 0 0 1 0 0).s ≠ (flags 0 0 1 0 0).o) ∧
      ¬((flags 0 1 1 0 0).z = true ∨ (flags 0 1 1 0 0).s ≠ (flags 0 1 1 0 0).o)) ∧
    ((flags 0 1 1 0 0).s = (flags 0 1 1 0 0).o ∧ ¬(flags 0 0 1 0 0).s = (flags 0 0 1 0 0).o) ∧
    (((flags 0 0 0 0 0).c = false ∧ (flags 0 0 0 0 0).z = false) ∧
      ¬((flags 1 0 0 0 0).c = false ∧ (flags 1 0 0 0 0).z = false)) ∧
    ((flags 0 0 0 1 0).c = true ∧ ¬(flags 0 0 0 0 0).c = true) ∧
    ((flags 0 0 0 0 0).c = false ∧ ¬(flags 0 0 0 1 0).c = false) ∧
    (((flags 0 0 0 1 0).c = true ∨ (flags 0 0 0 1 0).z = true) ∧
      ¬((flags 0 0 0 0 0).c = true ∨ (flags 0 0 0 0 0).z = true)) ∧
    (((flags 0 1 1 0 0).z = false ∧ (flags 0 1 1 0 0).s = (flags 0 1 1 0 0).o) ∧
      ¬((flags 1 0 0 0 0).z = false ∧ (flags 1 0 0 0 0).s = (flags 1 0 0 0 0).o)) ∧
    comparedFlags .r0 .r0 (start.setFlags (flags 1 0 0 0 0)) = flags 1 0 0 0 0 := by decide

/-- ExchangesOnOneFlag and JumpsOnOneFlag: each flag set and clear. -/
theorem test_witness_flag_conditions :
    (flags 1 1 1 1 1).z = true ∧ (flags 1 1 1 1 1).c = true ∧ (flags 1 1 1 1 1).o = true ∧ (flags 1 1 1 1 1).s = true ∧
    (flags 1 1 1 1 1).p = true ∧ (flags 0 0 0 0 0).z = false ∧ (flags 0 0 0 0 0).c = false ∧
    (flags 0 0 0 0 0).o = false ∧ (flags 0 0 0 0 0).s = false ∧ (flags 0 0 0 0 0).p = false ∧
    comparedFlags .r0 .r0 (start.setFlags (flags 1 1 1 1 1)) = flags 1 1 1 1 1 := by decide

/-- ComparingJumpsDecideTheNamedOrder: operands that compare, for each relation a pair that has it and one that has not. -/
theorem test_witness_orders :
    ¬(Reg.r1 = .r0 ∧ Reg.r2 = .r0) ∧ ((5 : Word) = 5 ∧ (5 : Word) ≠ 6) ∧
    ((0x8000 : Word).toInt < (0x7FFF : Word).toInt ∧ ¬(0x7FFF : Word).toInt < (0x8000 : Word).toInt) ∧
    ((0x7FFF : Word).toInt > (0x8000 : Word).toInt ∧ (5 : Word).toInt ≤ (5 : Word).toInt ∧
      (5 : Word).toInt ≥ (5 : Word).toInt) ∧
    ((0x8000 : Word).toNat > (0x7FFF : Word).toNat ∧ (0x7FFF : Word).toNat < (0x8000 : Word).toNat ∧
      (5 : Word).toNat ≥ (5 : Word).toNat ∧ (5 : Word).toNat ≤ (5 : Word).toNat) := by decide

/-- MulWritesTheProductPair and the DIV statements: a pair that ends in r1, where the register before is r0, and one
that does not. -/
theorem test_witness_pairs :
    Reg.before .r1 = some .r0 ∧ Reg.before .r7 = some .r6 ∧ Reg.before .r0 = none := by decide

/-- A dividend in r3 and r4, the divisor 2 in r5. -/
def dividing (hi lo : Word) : State := ((start.setReg .r3 hi).setReg .r4 lo).setReg .r5 2

/-- DivWritesQuotientAndModulus: the largest dividend whose quotient fits. -/
theorem test_witness_div :
    Reg.before .r2 = some .r1 ∧ Reg.before .r4 = some .r3 ∧ (dividing 1 0xFFFF).reg .r5 ≠ 0 ∧
    ((dividing 1 0xFFFF).reg .r3).toNat * 65536 + ((dividing 1 0xFFFF).reg .r4).toNat <
      65536 * ((dividing 1 0xFFFF).reg .r5).toNat := by decide

/-- DivWithLargeQuotientCompletes: the least dividend whose quotient does not fit. -/
theorem test_witness_div_large :
    Reg.before .r2 = some .r1 ∧ Reg.before .r4 = some .r3 ∧ (dividing 2 0).reg .r5 ≠ 0 ∧
    65536 * ((dividing 2 0).reg .r5).toNat ≤
      ((dividing 2 0).reg .r3).toNat * 65536 + ((dividing 2 0).reg .r4).toNat := by decide

/-- DivWithLargeQuotientCompletes: that one goes on (vector 10 of 2.7). -/
theorem test_witness_large_quotient :
    seen (run (dividing 2 0) 0x7162) (fun t => (t.reg .r3, t.reg .r5, t.ip)) = some (2, 2, 0x0011) := by decide

/-- MulAndDivStopExactlyHere: each side of each equivalence. -/
theorem test_witness_mul_div :
    refusalOf (exec (.mul .r0 .r2 .r3) start) = some .noRegisterBeforeR0 ∧
    refusalOf (exec (.div .r2 .r0 .r3) start) = some .noRegisterBeforeR0 ∧
    faultOf (exec (.div .r2 .r1 .r3) start) = some .divideByZero := by decide

/-- LopTestsThenDecrements: the clauses for a field that is 000 and one that is not, taken and not taken. -/
theorem test_witness_lop :
    Reg.r1 ≠ .r0 ∧ (comparedFlags .r1 .r0 (start.setReg .r1 1)).z = false ∧ (comparedFlags .r1 .r0 start).z = true ∧
    (comparedFlags .r0 .r0 start).z = false := by decide

/-- RefusedExactlyIfIllFormed: an instruction on each side. -/
theorem test_witness_ill_formed :
    (Instr.stw .i .r1 0).wellFormed = false ∧ refusalOf (exec (.stw .i .r1 0) start) = some .storeToImmediate ∧
    Instr.hlt.wellFormed = true ∧ faultOf (exec (.div .r1 .r1 .r0) start) = some .divideByZero := by decide

/-- OnlyJumpsLeaveTheSequence, DataMovementKeepsFlags, OnlyStoresChangeMemory, OnlyHltHalts: NOP completes. -/
theorem test_witness_nop :
    seen (exec .nop start) id = some (start.setIp 0x0011) ∧ Instr.nop ≠ .hlt ∧ Instr.nop.compared = none ∧
    Instr.nop.keepsFlags = true ∧ Instr.nop.writesMemory = false ∧ Instr.nop.leavesFlagsOpen = false ∧
    Instr.nop.movesSp = false ∧ seen (exec .hlt start) id = some start.halt := by decide

/-- EveryJumpFollowsTheFlagRule: a jump that compares and one that does not. -/
theorem test_witness_jump :
    seen (exec (.jmp .r1 .r0 0x0040) start) (·.ip) = some 0x0040 ∧ Instr.compared (.jmp .r1 .r0 0x0040) = some (.r1, .r0) ∧
    seen (exec (.ret .r0 .r0) (start.setCell 0 0x0012)) (·.ip) = some 0x0012 := by decide

/-- OpenFlagsAreAFreshDraw: an instruction that draws completes. -/
theorem test_witness_draw :
    seen (exec (.add .r1 .r2 .r3) start) (·.draws) = some 1 ∧ (Instr.add .r1 .r2 .r3).leavesFlagsOpen = true := by decide

/-- OnlyStackInstructionsMoveSp: a push and a pop complete. -/
theorem test_witness_stack :
    seen (exec (.psw .r1) start) (·.sp) = some 0xFFFF ∧ (Instr.psw .r1).movesSp = true ∧
    (Instr.psw .r1).writesMemory = true ∧ seen (exec (.ppw .r1) (start.setCell 0 7)) (·.sp) = some 1 ∧
    (Instr.ppw .r1).movesSp = true ∧ (Instr.ppw .r1).writesMemory = false := by decide

end Sys2Proof.Tests
end

/-! ## O54: the instruction after this one (`00_scope.md` R11, `10_state.md` R24)

Every meaning is a sequence whose last operation sets IP. `EndsAt` names what that last operation fixes, and it passes
through a sequence, so one lemma per shared end of a meaning is enough for the instructions that use it. -/

namespace Sys2Proof.Machine

/-- Where `x` completes, it does so with IP at `a`. -/
def EndsAt (a : Word) (x : Result State) : Prop := ∀ t, x = .next t → t.ip = a

@[simp] theorem endsAt_next (a : Word) (t : State) : EndsAt a (.next t) ↔ t.ip = a := by
  simp [EndsAt]

@[simp] theorem endsAt_fault (a : Word) (e : Fault) : EndsAt a (.fault e) := nofun

/-- A sequence ends where its last part does. -/
theorem endsAt_andThen {α : Type} {a : Word} {x : Result α} {f : α → Result State}
    (h : ∀ v, x = .next v → EndsAt a (f v)) : EndsAt a (andThen x f) := by
  intro t ht
  obtain ⟨v, hx, hf⟩ := (andThen_eq_next x f t).1 ht
  exact h v hx t hf

/-! ### The shared ends of meanings -/

theorem finishAlu_endsAt (r : Reg) (v len : Word) (s : State) : EndsAt (s.ip + len) (finishAlu r v len s) := by
  simp [finishAlu_eq]

theorem copyIf_endsAt (k : Cond) (r q : Reg) (s : State) : EndsAt (s.ip + 1) (copyIf k r q s) := by
  unfold copyIf
  split <;> simp

theorem load_endsAt (g : Word → Word → Word) (m : Mode) (r : Reg) (w : Word) (s : State) :
    EndsAt (s.ip + 2) (load g m r w s) := by
  intro t h
  obtain ⟨v, -, rfl⟩ := (load_eq_next g m r w s t).1 h
  simp

theorem storeByte_endsAt (g : Word → Word → Word) (m : Mode) (r : Reg) (w : Word) (s : State) :
    EndsAt (s.ip + 2) (storeByte g m r w s) := by
  intro t h
  obtain ⟨a, old, -, -, rfl⟩ := (storeByte_eq_next g m r w s t).1 h
  simp

theorem pushAndGo_endsAt (v : Word) (s : State) : EndsAt (s.ip + 1) (pushAndGo v s) := by
  simp [pushAndGo]

theorem popInto_endsAt (g : Word → Word → Word) (r : Reg) (s : State) : EndsAt (s.ip + 1) (popInto g r s) := by
  refine endsAt_andThen fun p hp => ?_
  obtain ⟨-, hs⟩ := (pop_eq_next s p).1 hp
  simp [hs]

/-- Whichever of its three cases a division is in, it ends at the next instruction or not at all. -/
theorem divideInto_endsAt (r h : Reg) (n d : Nat) (s : State) : EndsAt (s.ip + 1) (divideInto r h n d s) := by
  unfold divideInto
  split
  · exact endsAt_fault _ _
  · split <;> simp [finishAlu_eq]

/-! ### The meanings that share no end -/

theorem execStw_endsAt (m : Mode) (r : Reg) (w : Word) (s : State) : EndsAt (s.ip + 2) (execStw m r w s) :=
  endsAt_andThen fun _ _ => by simp

theorem execMul_endsAt (r q t : Reg) (s : State) : EndsAt (s.ip + 1) (execMul r q t s) :=
  endsAt_andThen fun _ _ => by simp [finishAlu_eq]

theorem execDiv_endsAt (r q t : Reg) (s : State) : EndsAt (s.ip + 1) (execDiv r q t s) :=
  endsAt_andThen fun h _ => endsAt_andThen fun _ _ => divideInto_endsAt r h _ _ s

theorem execXch_endsAt (r q : Reg) (s : State) : EndsAt (s.ip + 1) (execXch r q s) := by
  simp [execXch]

/-! ### Every instruction -/

/-- The case split of O54: each instruction outside HLT and the J-type ends as the shared operation it ends with does,
and the length that operation is given is the number of words the instruction is written in. -/
theorem exec_endsAt_next (i : Instr) (s : State) (hhlt : i ≠ .hlt) (hjump : i.compared = none) :
    EndsAt (s.ip + i.size) (exec i s) := by
  cases i with
  | hlt => exact absurd rfl hhlt
  | nop | cmp | tst | flg | flr => exact (endsAt_next _ _).2 rfl
  | ldw => exact load_endsAt (fun _ v => v) _ _ _ s
  | ldl => exact load_endsAt mergeLow _ _ _ s
  | ldh => exact load_endsAt mergeHigh _ _ _ s
  | stw => exact execStw_endsAt _ _ _ s
  | stl | sth => exact storeByte_endsAt _ _ _ _ s
  | xch => exact execXch_endsAt _ _ s
  | xeq | xne | xlt | xgt | xle | xge | xat | xbt | xae | xbe
  | xyz | xnz | xyc | xnc | xyo | xno | xys | xns | xyp | xnp => exact copyIf_endsAt _ _ _ s
  | add | adc | sub | sbb | and | orr | xor | not | neg | mov => exact finishAlu_endsAt _ _ 1 s
  | asl | asr | lsr | rtl | rtr | rlc | rrc | lsl => exact finishAlu_endsAt _ _ 1 s
  | adi | sbi | aci | sib | ani | ori | xri | mvi => exact finishAlu_endsAt _ _ 2 s
  | mul => exact execMul_endsAt _ _ _ s
  | div => exact execDiv_endsAt _ _ _ s
  | psw | psl | psh => exact pushAndGo_endsAt _ s
  | ppw => exact popInto_endsAt (fun _ v => v) _ s
  | ppl => exact popInto_endsAt mergeLow _ s
  | pph => exact popInto_endsAt mergeHigh _ s
  | jmp | jeq | jne | jlt | jgt | jle | jge | jat | jbt | jae | jbe
  | jyz | jnz | jyc | jnc | jyo | jno | jys | jns | jyp | jnp | lop | cal | ret => cases hjump

/-- Settles O54: it holds, by `exec_endsAt_next`. -/
theorem onlyJumpsLeaveTheSequence : Obligations.OnlyJumpsLeaveTheSequence :=
  fun i s t hexec hhlt hjump => exec_endsAt_next i s hhlt hjump t hexec

end Sys2Proof.Machine

/-! ## O55, O58, O60: FL, SP and `halted` after an instruction (`10_state.md` R25, R27, R29)

Three functions give FL, SP and `halted` after each instruction, as `10_state.md` has them. `LeavesStatus` names what a
meaning makes of the three and passes through a sequence, so one lemma per shared end and one case split over the
instructions, `exec_leavesStatus`, tie the functions to the model. Each statement then reads its function. -/

namespace Sys2Proof.Machine

/-- FL after instruction `i` (`10_state.md` R27; D6, D7, D15). -/
def flagsAfter (i : Instr) (s : State) : Flags :=
  match i with
  | .cmp r q => flagsSub (s.reg r) (s.reg q)
  | .tst r q => flagsLogic (s.reg r &&& s.reg q)
  | .flg r => flagsOfWord (s.reg r)
  | .flr r => flagsLogic (s.reg r)
  | i =>
    match i.compared with
    | some (r, q) => comparedFlags r q s
    | none => if i.leavesFlagsOpen then flagsOfBits (Config.freeFlags s.draws) else s.fl

/-- SP after instruction `i`: of the instructions that move it, those that write memory push (`10_state.md` R25, D13). -/
def spAfter (i : Instr) (s : State) : Word :=
  if i.movesSp then if i.writesMemory then s.sp - 1 else s.sp + 1 else s.sp

/-- `halted` after instruction `i` (`10_state.md` R29, D26). -/
def haltedAfter (i : Instr) (s : State) : Bool :=
  match i with
  | .hlt => true
  | _ => s.halted

/-- Where `x` completes, it does so with FL at `f`, SP at `p` and `halted` at `b`. -/
def LeavesStatus (f : Flags) (p : Word) (b : Bool) (x : Result State) : Prop :=
  ∀ t, x = .next t → t.fl = f ∧ t.sp = p ∧ t.halted = b

@[simp] theorem leavesStatus_next (f : Flags) (p : Word) (b : Bool) (t : State) :
    LeavesStatus f p b (.next t) ↔ t.fl = f ∧ t.sp = p ∧ t.halted = b := by
  simp [LeavesStatus]

@[simp] theorem leavesStatus_fault (f : Flags) (p : Word) (b : Bool) (e : Fault) :
    LeavesStatus f p b (.fault e) := nofun

/-- A sequence leaves what its last part does. -/
theorem leavesStatus_andThen {α : Type} {f : Flags} {p : Word} {b : Bool} {x : Result α} {g : α → Result State}
    (h : ∀ v, x = .next v → LeavesStatus f p b (g v)) : LeavesStatus f p b (andThen x g) := by
  intro t ht
  obtain ⟨v, hx, hg⟩ := (andThen_eq_next x g t).1 ht
  exact h v hx t hg

/-! ### The shared ends of meanings -/

theorem finishAlu_leavesStatus (r : Reg) (v len : Word) (s : State) :
    LeavesStatus (flagsOfBits (Config.freeFlags s.draws)) s.sp s.halted (finishAlu r v len s) := by
  simp [finishAlu_eq]

theorem copyIf_leavesStatus (k : Cond) (r q : Reg) (s : State) :
    LeavesStatus s.fl s.sp s.halted (copyIf k r q s) := by
  unfold copyIf
  split <;> simp

theorem load_leavesStatus (g : Word → Word → Word) (m : Mode) (r : Reg) (w : Word) (s : State) :
    LeavesStatus s.fl s.sp s.halted (load g m r w s) := by
  intro t h
  obtain ⟨v, -, rfl⟩ := (load_eq_next g m r w s t).1 h
  simp

theorem storeByte_leavesStatus (g : Word → Word → Word) (m : Mode) (r : Reg) (w : Word) (s : State) :
    LeavesStatus s.fl s.sp s.halted (storeByte g m r w s) := by
  intro t h
  obtain ⟨a, old, -, -, rfl⟩ := (storeByte_eq_next g m r w s t).1 h
  simp

theorem pushAndGo_leavesStatus (v : Word) (s : State) :
    LeavesStatus s.fl (s.sp - 1) s.halted (pushAndGo v s) := by
  simp [pushAndGo]

theorem popInto_leavesStatus (g : Word → Word → Word) (r : Reg) (s : State) :
    LeavesStatus s.fl (s.sp + 1) s.halted (popInto g r s) := by
  refine leavesStatus_andThen fun p hp => ?_
  obtain ⟨-, hs⟩ := (pop_eq_next s p).1 hp
  simp [hs]

/-- A division that completes ends as any arithmetic instruction, whether or not its quotient fits. -/
theorem divideInto_leavesStatus (r h : Reg) (n d : Nat) (s : State) :
    LeavesStatus (flagsOfBits (Config.freeFlags s.draws)) s.sp s.halted (divideInto r h n d s) := by
  unfold divideInto
  split
  · exact leavesStatus_fault _ _ _ _
  · split <;> simp [finishAlu_eq]

/-- The comparison of a J-type instruction follows its flag rule. -/
@[simp] theorem jumpCompare_fl_eq_comparedFlags (r q : Reg) (s : State) :
    (jumpCompare r q s).fl = comparedFlags r q s := jumpCompare_fl r q s

theorem compareAndJump_leavesStatus (k : Cond) (r q : Reg) (w : Word) (s : State) :
    LeavesStatus (comparedFlags r q s) s.sp s.halted (compareAndJump k r q w s) := by
  simp [compareAndJump, jumpIf_eq]

/-! ### The meanings that share no end -/

theorem execStw_leavesStatus (m : Mode) (r : Reg) (w : Word) (s : State) :
    LeavesStatus s.fl s.sp s.halted (execStw m r w s) :=
  leavesStatus_andThen fun _ _ => by simp

theorem execXch_leavesStatus (r q : Reg) (s : State) : LeavesStatus s.fl s.sp s.halted (execXch r q s) := by
  simp [execXch]

theorem execMul_leavesStatus (r q t : Reg) (s : State) :
    LeavesStatus (flagsOfBits (Config.freeFlags s.draws)) s.sp s.halted (execMul r q t s) :=
  leavesStatus_andThen fun _ _ => by simp [finishAlu_eq]

theorem execDiv_leavesStatus (r q t : Reg) (s : State) :
    LeavesStatus (flagsOfBits (Config.freeFlags s.draws)) s.sp s.halted (execDiv r q t s) :=
  leavesStatus_andThen fun h _ => leavesStatus_andThen fun _ _ => divideInto_leavesStatus r h _ _ s

theorem execJmp_leavesStatus (r q : Reg) (w : Word) (s : State) :
    LeavesStatus (comparedFlags r q s) s.sp s.halted (execJmp r q w s) := by
  simp [execJmp]

theorem execLop_leavesStatus (r q : Reg) (w : Word) (s : State) :
    LeavesStatus (comparedFlags r q s) s.sp s.halted (execLop r q w s) := by
  simp [execLop, jumpIf_eq]

theorem execCal_leavesStatus (r q : Reg) (w : Word) (s : State) :
    LeavesStatus (comparedFlags r q s) (s.sp - 1) s.halted (execCal r q w s) := by
  simp [execCal]

theorem execRet_leavesStatus (r q : Reg) (s : State) :
    LeavesStatus (comparedFlags r q s) (s.sp + 1) s.halted (execRet r q s) := by
  refine leavesStatus_andThen fun p hp => ?_
  obtain ⟨-, hs⟩ := (pop_eq_next _ p).1 hp
  simp [hs]

/-! ### Every instruction -/

/-- What every instruction makes of FL, SP and `halted`, by the shared operation it ends with. -/
theorem exec_leavesStatus (i : Instr) (s : State) :
    LeavesStatus (flagsAfter i s) (spAfter i s) (haltedAfter i s) (exec i s) := by
  cases i with
  | hlt | nop | cmp | tst | flg | flr => exact (leavesStatus_next _ _ _ _).2 ⟨rfl, rfl, rfl⟩
  | ldw => exact load_leavesStatus (fun _ v => v) _ _ _ s
  | ldl => exact load_leavesStatus mergeLow _ _ _ s
  | ldh => exact load_leavesStatus mergeHigh _ _ _ s
  | stw => exact execStw_leavesStatus _ _ _ s
  | stl | sth => exact storeByte_leavesStatus _ _ _ _ s
  | xch => exact execXch_leavesStatus _ _ s
  | xeq | xne | xlt | xgt | xle | xge | xat | xbt | xae | xbe
  | xyz | xnz | xyc | xnc | xyo | xno | xys | xns | xyp | xnp => exact copyIf_leavesStatus _ _ _ s
  | add | adc | sub | sbb | and | orr | xor | not | neg | mov
  | asl | asr | lsr | rtl | rtr | rlc | rrc | lsl
  | adi | sbi | aci | sib | ani | ori | xri | mvi => exact finishAlu_leavesStatus _ _ _ s
  | mul => exact execMul_leavesStatus _ _ _ s
  | div => exact execDiv_leavesStatus _ _ _ s
  | jmp => exact execJmp_leavesStatus _ _ _ s
  | jeq | jne | jlt | jgt | jle | jge | jat | jbt | jae | jbe
  | jyz | jnz | jyc | jnc | jyo | jno | jys | jns | jyp | jnp => exact compareAndJump_leavesStatus _ _ _ _ s
  | lop => exact execLop_leavesStatus _ _ _ s
  | psw | psl | psh => exact pushAndGo_leavesStatus _ s
  | ppw => exact popInto_leavesStatus (fun _ v => v) _ s
  | ppl => exact popInto_leavesStatus mergeLow _ s
  | pph => exact popInto_leavesStatus mergeHigh _ s
  | cal => exact execCal_leavesStatus _ _ _ s
  | ret => exact execRet_leavesStatus _ _ s

theorem exec_fl {i : Instr} {s t : State} (h : exec i s = .next t) : t.fl = flagsAfter i s :=
  (exec_leavesStatus i s t h).1

theorem exec_sp {i : Instr} {s t : State} (h : exec i s = .next t) : t.sp = spAfter i s :=
  (exec_leavesStatus i s t h).2.1

theorem exec_halted {i : Instr} {s t : State} (h : exec i s = .next t) : t.halted = haltedAfter i s :=
  (exec_leavesStatus i s t h).2.2

/-- An instruction of the last row of R27 compares nothing and leaves nothing open. -/
theorem flagsAfter_of_keepsFlags (i : Instr) (s : State) (hkeeps : i.keepsFlags = true) : flagsAfter i s = s.fl := by
  cases i with
  | hlt | nop | ldw | stw | ldl | stl | ldh | sth | xch
  | xeq | xne | xlt | xgt | xle | xge | xat | xbt | xae | xbe
  | xyz | xnz | xyc | xnc | xyo | xno | xys | xns | xyp | xnp
  | psw | psl | psh | ppw | ppl | pph => rfl
  | _ => cases hkeeps

theorem haltedAfter_eq_true_iff (i : Instr) (s : State) :
    haltedAfter i s = true ↔ s.halted = true ∨ i = .hlt := by
  unfold haltedAfter
  split <;> simp_all

/-- Settles O55: it holds, since FL after such an instruction is FL before it. -/
theorem dataMovementKeepsFlags : Obligations.DataMovementKeepsFlags :=
  fun i s _ hexec hkeeps => (exec_fl hexec).trans (flagsAfter_of_keepsFlags i s hkeeps)

/-- Settles O58: it holds, by the cases of `spAfter`. -/
theorem onlyStackInstructionsMoveSp : Obligations.OnlyStackInstructionsMoveSp := by
  intro i s t hexec
  rw [exec_sp hexec, spAfter]
  exact ⟨fun hstays => if_neg (by simp [hstays]), fun hmoves => if_pos hmoves⟩

/-- Settles O60: it holds, by the two cases of `haltedAfter`. -/
theorem onlyHltHalts : Obligations.OnlyHltHalts := by
  intro i s t hexec
  rw [exec_halted hexec]
  exact haltedAfter_eq_true_iff i s

end Sys2Proof.Machine

/-! ## O13: r0 as a destination (`10_state.md` R21) -/

namespace Sys2Proof.Machine

/-- An arithmetic instruction that reaches its end has the effect of its family. -/
theorem finishAlu_aluEffect (r : Reg) (v len : Word) (s : State) :
    ∃ u, finishAlu r v len s = .next u ∧ AluEffect r v len s u := by
  refine ⟨_, finishAlu_eq r v len s, fun k => ?_, ?_⟩
  · simp [State.reg_setReg]
  · simp [SameBytes]

/-- LDW in mode `id` loads the cell that its operand names (`41_load_store.md` R131, R136). -/
theorem exec_ldw_id {s : State} {a v : Word} (r : Reg) (hcell : s.cell a = some v) :
    exec (.ldw .id r a) s = .next ((s.setReg r v).advance 2) := by
  have hvalue : loadValue .id a s = .next v := (loadValue_eq_next _ _ _ _).2 (.inr ⟨nofun, a, rfl, hcell⟩)
  exact (load_eq_next (fun _ v => v) _ _ _ _ _).2 ⟨v, hvalue, rfl⟩

/-- PPW moves the cell at SP to its register and SP to the next one (`47_stack_call.md` R284). -/
theorem exec_ppw {s : State} {v : Word} (r : Reg) (hcell : s.cell s.sp = some v) :
    exec (.ppw r) s = .next (((s.setSp (s.sp + 1)).setReg r v).advance 1) := by
  have hpop : pop s = .next (v, s.setSp (s.sp + 1)) := (pop_eq_next _ _).2 ⟨hcell, rfl⟩
  exact (andThen_eq_next _ _ _).2 ⟨_, hpop, rfl⟩

/-- MUL into r1 writes its upper half to r0, so only the lower half is left (`43_arithmetic_logic.md` R198). -/
theorem exec_mul_r1 (q t : Reg) (s : State) :
    exec (.mul .r1 q t) s = finishAlu .r1 (BitVec.ofNat 16 (product (s.reg q) (s.reg t))) 1 s := rfl

/-- Settles O13: it holds; each destination r0 drops out by `State.setReg_r0`. -/
theorem writesOfR0AreDiscarded : Obligations.WritesOfR0AreDiscarded := by
  intro s v a q t
  refine ⟨State.reg_r0 s, State.setReg_r0 s v, fun hcell => ?_, fun hcell => ?_, ?_⟩
  · exact exec_ldw_id .r0 hcell
  · exact exec_ppw .r0 hcell
  · rw [exec_mul_r1]
    exact finishAlu_aluEffect .r1 _ 1 s

end Sys2Proof.Machine

/-! ## O8, O59: what an instruction makes of memory (`20_memory.md` R54, R55, R58)

By the column "writes" of R58 an instruction writes one whole cell or none. `Ensures` says what holds wherever a meaning
completes and passes through a sequence, so one lemma per shared end is enough. Two case splits tie `Instr.writesMemory`
to the model, `exec_keepsMem` and `exec_writesOneCell`; O59 is the first, and O8 follows from both by `wf_writeCell`. -/

namespace Sys2Proof.Machine

/-- Wherever `x` completes, `P` holds of the state it answers. -/
def Ensures (P : State → Prop) (x : Result State) : Prop := ∀ t, x = .next t → P t

@[simp] theorem ensures_next (P : State → Prop) (t : State) : Ensures P (.next t) ↔ P t := by
  simp [Ensures]

@[simp] theorem ensures_fault (P : State → Prop) (e : Fault) : Ensures P (.fault e) := nofun

/-- A sequence ensures what its last part does. -/
theorem ensures_andThen {α : Type} {P : State → Prop} {x : Result α} {f : α → Result State}
    (h : ∀ v, x = .next v → Ensures P (f v)) : Ensures P (andThen x f) := by
  intro t ht
  obtain ⟨v, hx, hf⟩ := (andThen_eq_next x f t).1 ht
  exact h v hx t hf

/-- Memory is that of `s`, list for list. -/
def SameMem (s t : State) : Prop := t.mem = s.mem

/-- Memory is that of `s` with one whole cell replaced (`20_memory.md` R54). -/
def OneCellWritten (s t : State) : Prop := ∃ a v, t.mem = writeCell s.mem a v

theorem SameMem.sameBytes {s t : State} (h : SameMem s t) : SameBytes s t :=
  fun k => congrArg (readLane · k) h

theorem SameMem.inv {s t : State} (h : SameMem s t) (hinv : s.Inv) : t.Inv :=
  (congrArg Memory.wf h).trans hinv

theorem OneCellWritten.inv {s t : State} (h : OneCellWritten s t) (hinv : s.Inv) : t.Inv := by
  obtain ⟨a, v, hmem⟩ := h
  exact (congrArg Memory.wf hmem).trans (wf_writeCell s.mem a v hinv)

/-! ### The shared ends that write no memory -/

theorem finishAlu_keepsMem (r : Reg) (v len : Word) (s : State) : Ensures (SameMem s) (finishAlu r v len s) := by
  simp [finishAlu_eq, SameMem]

theorem copyIf_keepsMem (k : Cond) (r q : Reg) (s : State) : Ensures (SameMem s) (copyIf k r q s) := by
  unfold copyIf
  split <;> simp [SameMem]

theorem load_keepsMem (g : Word → Word → Word) (m : Mode) (r : Reg) (w : Word) (s : State) :
    Ensures (SameMem s) (load g m r w s) := by
  intro t h
  obtain ⟨v, -, rfl⟩ := (load_eq_next g m r w s t).1 h
  simp [SameMem]

theorem popInto_keepsMem (g : Word → Word → Word) (r : Reg) (s : State) : Ensures (SameMem s) (popInto g r s) := by
  refine ensures_andThen fun p hp => ?_
  obtain ⟨-, hs⟩ := (pop_eq_next s p).1 hp
  simp [hs, SameMem]

theorem divideInto_keepsMem (r h : Reg) (n d : Nat) (s : State) : Ensures (SameMem s) (divideInto r h n d s) := by
  unfold divideInto
  split
  · exact ensures_fault _ _
  · split <;> simp [finishAlu_eq, SameMem]

theorem compareAndJump_keepsMem (k : Cond) (r q : Reg) (w : Word) (s : State) :
    Ensures (SameMem s) (compareAndJump k r q w s) := by
  simp [compareAndJump, jumpIf_eq, SameMem]

/-! ### The meanings that share no end and write no memory -/

theorem execXch_keepsMem (r q : Reg) (s : State) : Ensures (SameMem s) (execXch r q s) := by
  simp [execXch, SameMem]

theorem execMul_keepsMem (r q t : Reg) (s : State) : Ensures (SameMem s) (execMul r q t s) :=
  ensures_andThen fun _ _ => by simp [finishAlu_eq, SameMem]

theorem execDiv_keepsMem (r q t : Reg) (s : State) : Ensures (SameMem s) (execDiv r q t s) :=
  ensures_andThen fun h _ => ensures_andThen fun _ _ => divideInto_keepsMem r h _ _ s

theorem execJmp_keepsMem (r q : Reg) (w : Word) (s : State) : Ensures (SameMem s) (execJmp r q w s) := by
  simp [execJmp, SameMem]

theorem execLop_keepsMem (r q : Reg) (w : Word) (s : State) : Ensures (SameMem s) (execLop r q w s) := by
  simp [execLop, jumpIf_eq, SameMem]

theorem execRet_keepsMem (r q : Reg) (s : State) : Ensures (SameMem s) (execRet r q s) := by
  refine ensures_andThen fun p hp => ?_
  obtain ⟨-, hs⟩ := (pop_eq_next _ p).1 hp
  simp [hs, SameMem]

/-! ### The ends and meanings that write a cell -/

theorem storeByte_writesOneCell (g : Word → Word → Word) (m : Mode) (r : Reg) (w : Word) (s : State) :
    Ensures (OneCellWritten s) (storeByte g m r w s) := by
  intro t h
  obtain ⟨a, old, -, -, rfl⟩ := (storeByte_eq_next g m r w s t).1 h
  exact ⟨a, _, rfl⟩

theorem execStw_writesOneCell (m : Mode) (r : Reg) (w : Word) (s : State) :
    Ensures (OneCellWritten s) (execStw m r w s) :=
  ensures_andThen fun a _ => by
    rw [memWrite_eq, andThen_next, ensures_next]
    exact ⟨a, s.reg r, rfl⟩

theorem pushAndGo_writesOneCell (v : Word) (s : State) : Ensures (OneCellWritten s) (pushAndGo v s) := by
  rw [pushAndGo, push_eq, andThen_next, ensures_next]
  exact ⟨s.sp - 1, v, rfl⟩

/-- The comparison before the push of CAL leaves memory alone. -/
theorem execCal_writesOneCell (r q : Reg) (w : Word) (s : State) : Ensures (OneCellWritten s) (execCal r q w s) := by
  rw [execCal, push_eq, andThen_next, ensures_next]
  exact ⟨s.sp - 1, s.nextIp 2, by simp⟩

/-! ### Every instruction -/

/-- An instruction outside the column "writes" of R58 ends in a shared operation that writes no memory. -/
theorem exec_keepsMem (i : Instr) (s : State) (hreads : i.writesMemory = false) : Ensures (SameMem s) (exec i s) := by
  cases i with
  | hlt | nop | cmp | tst | flg | flr => exact (ensures_next _ _).2 rfl
  | ldw => exact load_keepsMem (fun _ v => v) _ _ _ s
  | ldl => exact load_keepsMem mergeLow _ _ _ s
  | ldh => exact load_keepsMem mergeHigh _ _ _ s
  | xch => exact execXch_keepsMem _ _ s
  | xeq | xne | xlt | xgt | xle | xge | xat | xbt | xae | xbe
  | xyz | xnz | xyc | xnc | xyo | xno | xys | xns | xyp | xnp => exact copyIf_keepsMem _ _ _ s
  | add | adc | sub | sbb | and | orr | xor | not | neg | mov
  | asl | asr | lsr | rtl | rtr | rlc | rrc | lsl
  | adi | sbi | aci | sib | ani | ori | xri | mvi => exact finishAlu_keepsMem _ _ _ s
  | mul => exact execMul_keepsMem _ _ _ s
  | div => exact execDiv_keepsMem _ _ _ s
  | jmp => exact execJmp_keepsMem _ _ _ s
  | jeq | jne | jlt | jgt | jle | jge | jat | jbt | jae | jbe
  | jyz | jnz | jyc | jnc | jyo | jno | jys | jns | jyp | jnp => exact compareAndJump_keepsMem _ _ _ _ s
  | lop => exact execLop_keepsMem _ _ _ s
  | ppw => exact popInto_keepsMem (fun _ v => v) _ s
  | ppl => exact popInto_keepsMem mergeLow _ s
  | pph => exact popInto_keepsMem mergeHigh _ s
  | ret => exact execRet_keepsMem _ _ s
  | stw | stl | sth | psw | psl | psh | cal => cases hreads

/-- An instruction of the column "writes" of R58 replaces one whole cell, a byte store too (R55). -/
theorem exec_writesOneCell (i : Instr) (s : State) (hwrites : i.writesMemory = true) :
    Ensures (OneCellWritten s) (exec i s) := by
  cases i with
  | stw => exact execStw_writesOneCell _ _ _ s
  | stl | sth => exact storeByte_writesOneCell _ _ _ _ s
  | psw | psl | psh => exact pushAndGo_writesOneCell _ s
  | cal => exact execCal_writesOneCell _ _ _ s
  | _ => cases hwrites

/-- Every instruction keeps the canonical form: it writes no memory or one whole cell. -/
theorem exec_keepsInv (i : Instr) (s : State) (hinv : s.Inv) : Ensures State.Inv (exec i s) := by
  intro t hexec
  cases hwrites : i.writesMemory with
  | false => exact (exec_keepsMem i s hwrites t hexec).inv hinv
  | true => exact (exec_writesOneCell i s hwrites t hexec).inv hinv

/-- Where a step completes, the machine was halted and stays as it was, or it executed the instruction it fetched. -/
theorem step_eq_next_cases {s t : State} (h : step s = .next t) :
    (s.halted = true ∧ t = s) ∨ (s.halted = false ∧ ∃ i, fetch s = .next i ∧ exec i s = .next t) := by
  cases hh : s.halted with
  | true =>
    rw [step_halted s hh] at h
    cases h
    exact .inl ⟨rfl, rfl⟩
  | false =>
    rw [step_running s hh] at h
    exact .inr ⟨rfl, (andThen_eq_next _ _ _).1 h⟩

/-- Settles O8: it holds, since a step keeps the state or executes one instruction, by `exec_keepsInv`. -/
theorem stepKeepsMemoryCanonical : Obligations.StepKeepsMemoryCanonical := by
  intro s t hinv hstep
  obtain ⟨-, rfl⟩ | ⟨-, i, -, hexec⟩ := step_eq_next_cases hstep
  · exact hinv
  · exact exec_keepsInv i s hinv t hexec

/-- Settles O59: it holds, by `exec_keepsMem`. -/
theorem onlyStoresChangeMemory : Obligations.OnlyStoresChangeMemory :=
  fun i s t hexec hreads => (exec_keepsMem i s hreads t hexec).sameBytes

end Sys2Proof.Machine

/-! ## O18, O21, O22: stores and reads of one cell (`20_memory.md` R53 to R55, R61, R64) -/

namespace Sys2Proof.Machine

/-! ### The merged cell, as a number -/

theorem mergeLow_eq_ofNat (old v : Word) :
    mergeLow old v = BitVec.ofNat 16 (old.toNat / 256 * 256 + v.toNat % 256) := by
  have := old.isLt
  apply BitVec.eq_of_toNat_eq
  rw [mergeLow, toNat_joinBytes, toNat_highByte, toNat_lowByte, BitVec.toNat_ofNat]
  omega

theorem mergeHigh_eq_ofNat (old v : Word) :
    mergeHigh old v = BitVec.ofNat 16 (v.toNat % 256 * 256 + old.toNat % 256) := by
  apply BitVec.eq_of_toNat_eq
  rw [mergeHigh, toNat_joinBytes, toNat_lowByte, toNat_lowByte, BitVec.toNat_ofNat]
  omega

/-! ### What a store changes -/

/-- A write of a cell reaches its two bytes and no other. -/
theorem onlyCell_setCell (a v : Word) (s : State) : OnlyCell a v s (s.setCell a v) := by
  refine ⟨by simp, fun k hlow hhigh => ?_⟩
  simp [State.setCell_lane, hlow, hhigh]

/-- What a store of two words leaves: `v` in cell `a`, the next instruction, and all else as it was (D7). -/
def StoreEffect (a v : Word) (s t : State) : Prop :=
  OnlyCell a v s t ∧ SameRegs s t ∧ t.ip = s.ip + 2 ∧ t.sp = s.sp ∧ t.fl = s.fl ∧ t.halted = s.halted

theorem setCell_advance_storeEffect (a v : Word) (s : State) : StoreEffect a v s ((s.setCell a v).advance 2) := by
  obtain ⟨hcell, hrest⟩ := onlyCell_setCell a v s
  refine ⟨⟨?_, fun k hlow hhigh => ?_⟩, fun k => ?_, rfl, rfl, rfl, rfl⟩
  · rw [State.advance_cell, hcell]
  · rw [State.advance_lane, hrest k hlow hhigh]
  · rw [State.advance_reg, State.setCell_reg]

/-- A byte store completes where its address and the cell there are readable, and leaves the merged cell. -/
theorem storeByte_storeEffect (g : Word → Word → Word) {m : Mode} (r : Reg) {w a old : Word} {s : State}
    (haddr : effectiveAddress m w s = .next a) (hold : s.cell a = some old) :
    ∃ u, storeByte g m r w s = .next u ∧ StoreEffect a (g old (s.reg r)) s u :=
  ⟨_, (storeByte_eq_next g m r w s _).2 ⟨a, old, haddr, hold, rfl⟩, setCell_advance_storeEffect a _ s⟩

/-- STW in mode `id` writes the cell that its operand names (`41_load_store.md` R131, R137). -/
theorem exec_stw_id (r : Reg) (a : Word) (s : State) :
    exec (.stw .id r a) s = .next ((s.setCell a (s.reg r)).advance 2) := rfl

/-- A running machine whose cell at IP is a one-word instruction executes it. -/
theorem step_of_one_word {s : State} {w : Word} {i : Instr} (hrun : s.halted = false) (hcell : s.cell s.ip = some w)
    (hlen : lengthOf w = some 1) (hdec : decode w 0 = .ok i) : step s = exec i s := by
  have hfetch : fetch s = .next i := (fetch_eq_next s i).2 ⟨w, hcell, .inl ⟨hlen, hdec⟩⟩
  rw [step_running s hrun, hfetch, andThen_next]

/-! ### The statements -/

/-- Settles O18: it holds; STL and STH are `storeByte` with the two merges. -/
theorem byteStoresMergeIntoTheCell : Obligations.ByteStoresMergeIntoTheCell := by
  intro m r w a old s haddr hold
  rw [← mergeLow_eq_ofNat, ← mergeHigh_eq_ofNat]
  exact ⟨storeByte_storeEffect mergeLow r haddr hold, storeByte_storeEffect mergeHigh r haddr hold⟩

/-- Settles O22: it holds, since the state after the store has IP at the cell just written. -/
theorem storedInstructionRunsNext : Obligations.StoredInstructionRunsNext := by
  intro r s i hrun hlen hdec
  refine ⟨_, exec_stw_id r (s.ip + 2) s, step_of_one_word hrun ?_ hlen hdec⟩
  simp

/-- Settles O21: it holds, by what a cell reads as after a write of a cell. -/
theorem readReturnsTheLatestWrite : Obligations.ReadReturnsTheLatestWrite := by
  intro k a b v s
  refine ⟨s.setCell a v, memWrite_eq a v s, ?_, fun hne => ?_⟩
  · rw [memRead_eq_next, State.setCell_cell, if_pos rfl]
  · rw [memRead_eq, memRead_eq, State.setCell_cell, if_neg hne]

end Sys2Proof.Machine

/-! ## O1 to O4: the decoder and the encoder (`30_encoding.md` R80 to R102, R106)

The type picks one opcode table. Of each table it is said once which opcodes have no row and how the encoder writes
what a row answers; of each format line, that its fields put the word together again. -/

namespace Sys2Proof

/-! ### The table that the type picks -/

theorem typeField_cases (w0 : Word) :
    typeField w0 = 0 ∨ typeField w0 = 1 ∨ typeField w0 = 2 ∨ typeField w0 = 3 ∨ typeField w0 = 4 ∨ typeField w0 = 5 ∨
      typeField w0 = 6 ∨ typeField w0 = 7 := by
  generalize typeField w0 = c
  revert c
  decide

section Types

variable {w0 : Word} (w1 : Word)

theorem decode_of_type0 (h : typeField w0 = 0) : decode w0 w1 = assigned (decodeR0 (opcode10 w0)) := by
  simp [decode, h]

theorem decode_of_type1 (h : typeField w0 = 1) :
    decode w0 w1 = assigned (decodeR1 (opcode10 w0) (rrrField w0)) := by
  simp [decode, h]

theorem decode_of_type2 (h : typeField w0 = 2) :
    decode w0 w1 = assigned (decodeR2 (opcode7 w0) (rrrField w0) (sssField w0)) := by
  simp [decode, h]

theorem decode_of_type3 (h : typeField w0 = 3) :
    decode w0 w1 = assigned (decodeR3 (opcode4 w0) (rrrField w0) (sssField w0) (tttField w0)) := by
  simp [decode, h]

theorem decode_of_type4 (h : typeField w0 = 4) :
    decode w0 w1 = assigned (decodeM (opcode5 w0) (storeBit w0) (modeField w0) (rrrField w0) w1) := by
  simp [decode, h]

theorem decode_of_type5 (h : typeField w0 = 5) :
    decode w0 w1 = assigned (decodeJ (opcode7 w0) (rrrField w0) (sssField w0) w1) := by
  simp [decode, h]

theorem decode_of_type6 (h : typeField w0 = 6) :
    decode w0 w1 = assigned (decodeR2I (opcode7 w0) (rrrField w0) (sssField w0) w1) := by
  simp [decode, h]

theorem decode_of_type7 (h : typeField w0 = 7) : decode w0 w1 = .error .undefinedType := by
  simp [decode, h]

end Types

theorem assigned_eq_ok (row : Option Instr) (i : Instr) : assigned row = .ok i ↔ row = some i := by
  cases row <;> simp [assigned]

theorem assigned_eq_error (row : Option Instr) (e : Reject) :
    assigned row = .error e ↔ row = none ∧ e = .unassignedOpcode := by
  cases row <;> simp [assigned, eq_comm]

/-! ### The opcodes without a row -/

theorem decodeR0_eq_none (op : BitVec 10) : decodeR0 op = none ↔ 2 ≤ op.toNat := by
  unfold decodeR0
  split <;> grind

theorem decodeR1_eq_none (op : BitVec 10) (r : Reg) : decodeR1 op r = none ↔ 8 ≤ op.toNat := by
  unfold decodeR1
  split <;> grind

theorem decodeR2_eq_none (op : BitVec 7) (r s : Reg) : decodeR2 op r s = none ↔ 25 ≤ op.toNat := by
  unfold decodeR2
  split <;> grind

/-- All sixteen opcodes of the R3 type have a row. -/
theorem decodeR3_ne_none (op : BitVec 4) (r s t : Reg) : decodeR3 op r s t ≠ none := by
  have hop := op.isLt
  unfold decodeR3
  split <;> grind

theorem decodeM_eq_none (op : BitVec 5) (b : BitVec 1) (m : Mode) (r : Reg) (w : Word) :
    decodeM op b m r w = none ↔ 3 ≤ op.toNat := by
  have hbit := b.isLt
  unfold decodeM
  split <;> grind

theorem decodeJ_eq_none (op : BitVec 7) (r s : Reg) (w : Word) : decodeJ op r s w = none ↔ 24 ≤ op.toNat := by
  unfold decodeJ
  split <;> grind

theorem decodeR2I_eq_none (op : BitVec 7) (r s : Reg) (w : Word) : decodeR2I op r s w = none ↔ 7 ≤ op.toNat := by
  unfold decodeR2I
  split <;> grind

/-! ### The words that a row of a table is written in -/

/-- `i` is no pseudo-instruction, `w0` is its first word and `w1` its second, where it has one. -/
def WrittenAs (i : Instr) (w0 : Word) (w1 : Option Word) : Prop :=
  i.expand = i ∧ encodeW0 i = w0 ∧ encodeW1 i = w1

theorem writtenAs_of_decodeR0 {op : BitVec 10} {i : Instr} (h : decodeR0 op = some i) :
    WrittenAs i (wordR0 op) none := by
  unfold decodeR0 at h
  split at h <;> cases h
  all_goals next hop => exact ⟨rfl, congrArg wordR0 (BitVec.eq_of_toNat_eq hop.symm), rfl⟩

theorem writtenAs_of_decodeR1 {op : BitVec 10} {r : Reg} {i : Instr} (h : decodeR1 op r = some i) :
    WrittenAs i (wordR1 op r) none := by
  unfold decodeR1 at h
  split at h <;> cases h
  all_goals next hop => exact ⟨rfl, congrArg (wordR1 · r) (BitVec.eq_of_toNat_eq hop.symm), rfl⟩

theorem writtenAs_of_decodeR2 {op : BitVec 7} {r s : Reg} {i : Instr} (h : decodeR2 op r s = some i) :
    WrittenAs i (wordR2 op r s) none := by
  unfold decodeR2 at h
  split at h <;> cases h
  all_goals next hop => exact ⟨rfl, congrArg (wordR2 · r s) (BitVec.eq_of_toNat_eq hop.symm), rfl⟩

theorem writtenAs_of_decodeR3 {op : BitVec 4} {r s t : Reg} {i : Instr} (h : decodeR3 op r s t = some i) :
    WrittenAs i (wordR3 op r s t) none := by
  unfold decodeR3 at h
  split at h <;> cases h
  all_goals next hop => exact ⟨rfl, congrArg (wordR3 · r s t) (BitVec.eq_of_toNat_eq hop.symm), rfl⟩

theorem writtenAs_of_decodeM {op : BitVec 5} {b : BitVec 1} {m : Mode} {r : Reg} {w : Word} {i : Instr}
    (h : decodeM op b m r w = some i) : WrittenAs i (wordM op b m r) (some w) := by
  unfold decodeM at h
  split at h <;> cases h
  all_goals next hop hb =>
    exact ⟨rfl, congrArg₂ (wordM · · m r) (BitVec.eq_of_toNat_eq hop.symm) (BitVec.eq_of_toNat_eq hb.symm), rfl⟩

/-- RET is written with a zero where the decoder ignores the second word (R102; log entry 22). -/
theorem writtenAs_of_decodeJ {op : BitVec 7} {r s : Reg} {w : Word} {i : Instr} (h : decodeJ op r s w = some i) :
    WrittenAs i (wordJ op r s) (some (if i = .ret r s then 0 else w)) := by
  unfold decodeJ at h
  split at h <;> cases h
  all_goals next hop => exact ⟨rfl, congrArg (wordJ · r s) (BitVec.eq_of_toNat_eq hop.symm), by simp [encodeW1]⟩

theorem writtenAs_of_decodeR2I {op : BitVec 7} {r s : Reg} {w : Word} {i : Instr} (h : decodeR2I op r s w = some i) :
    WrittenAs i (wordR2I op r s) (some w) := by
  unfold decodeR2I at h
  split at h <;> cases h
  all_goals next hop => exact ⟨rfl, congrArg (wordR2I · r s) (BitVec.eq_of_toNat_eq hop.symm), rfl⟩

/-! ### A word is its fields -/

theorem toNat_slice (w : Word) (lo len : Nat) : (w.extractLsb' lo len).toNat = w.toNat / 2 ^ lo % 2 ^ len := by
  rw [BitVec.extractLsb'_toNat, Nat.shiftRight_eq_div_pow]

/-- Clearing the three low bits. -/
theorem toNat_and_fff8 (w : Word) : (w &&& 0xFFF8).toNat = w.toNat / 8 * 8 := by
  have hmask : (0xFFF8 : Word) = BitVec.allOnes 16 <<< 3 := by decide
  have hw := w.isLt
  rw [hmask, ← BitVec.shiftLeft_ushiftRight, BitVec.toNat_shiftLeft, BitVec.toNat_ushiftRight,
    Nat.shiftRight_eq_div_pow, Nat.shiftLeft_eq]
  omega

section Fields

variable {w : Word}

/-- The type is the word's number by 8192, since no field stands above it (R80). -/
theorem toNat_typeField (c : BitVec 3) (h : typeField w = c) : w.toNat / 8192 = c.toNat := by
  have hw := w.isLt
  rw [← h, typeField, toNat_slice]
  omega

theorem toNat_rrrField (w : Word) : (rrrField w).code.toNat = w.toNat % 8 := by
  rw [rrrField, Reg.code_ofCode, toNat_slice]
  omega

theorem toNat_sssField (w : Word) : (sssField w).code.toNat = w.toNat / 8 % 8 := by
  rw [sssField, Reg.code_ofCode, toNat_slice]
  omega

theorem toNat_tttField (w : Word) : (tttField w).code.toNat = w.toNat / 64 % 8 := by
  rw [tttField, Reg.code_ofCode, toNat_slice]
  omega

theorem toNat_modeField (w : Word) : (modeField w).code.toNat = w.toNat / 8 % 16 := by
  rw [modeField, Mode.code_ofCode, toNat_slice]
  omega

theorem toNat_opcode10 (w : Word) : (opcode10 w).toNat = w.toNat / 8 % 1024 := toNat_slice w 3 10

theorem toNat_opcode7 (w : Word) : (opcode7 w).toNat = w.toNat / 64 % 128 := toNat_slice w 6 7

theorem toNat_opcode4 (w : Word) : (opcode4 w).toNat = w.toNat / 512 % 16 := toNat_slice w 9 4

theorem toNat_opcode5 (w : Word) : (opcode5 w).toNat = w.toNat / 256 % 32 := toNat_slice w 8 5

theorem toNat_storeBit (w : Word) : (storeBit w).toNat = w.toNat / 128 % 2 := toNat_slice w 7 1

/-- An R0 word but for its three low bits, which hold no operand (R82, R102). -/
theorem wordR0_fields (h : typeField w = 0) : wordR0 (opcode10 w) = w &&& 0xFFF8 := by
  have htype : w.toNat / 8192 = 0 := toNat_typeField 0 h
  apply BitVec.eq_of_toNat_eq
  rw [wordR0_toNat, toNat_and_fff8, toNat_opcode10]
  omega

theorem wordR1_fields (h : typeField w = 1) : wordR1 (opcode10 w) (rrrField w) = w := by
  have htype : w.toNat / 8192 = 1 := toNat_typeField 1 h
  apply BitVec.eq_of_toNat_eq
  rw [wordR1_toNat, toNat_opcode10, toNat_rrrField]
  omega

theorem wordR2_fields (h : typeField w = 2) : wordR2 (opcode7 w) (rrrField w) (sssField w) = w := by
  have htype : w.toNat / 8192 = 2 := toNat_typeField 2 h
  apply BitVec.eq_of_toNat_eq
  rw [wordR2_toNat, toNat_opcode7, toNat_sssField, toNat_rrrField]
  omega

theorem wordR3_fields (h : typeField w = 3) :
    wordR3 (opcode4 w) (rrrField w) (sssField w) (tttField w) = w := by
  have htype : w.toNat / 8192 = 3 := toNat_typeField 3 h
  apply BitVec.eq_of_toNat_eq
  rw [wordR3_toNat, toNat_opcode4, toNat_tttField, toNat_sssField, toNat_rrrField]
  omega

theorem wordM_fields (h : typeField w = 4) :
    wordM (opcode5 w) (storeBit w) (modeField w) (rrrField w) = w := by
  have htype : w.toNat / 8192 = 4 := toNat_typeField 4 h
  apply BitVec.eq_of_toNat_eq
  rw [wordM_toNat, toNat_opcode5, toNat_storeBit, toNat_modeField, toNat_rrrField]
  omega

theorem wordJ_fields (h : typeField w = 5) : wordJ (opcode7 w) (rrrField w) (sssField w) = w := by
  have htype : w.toNat / 8192 = 5 := toNat_typeField 5 h
  apply BitVec.eq_of_toNat_eq
  rw [wordJ_toNat, toNat_opcode7, toNat_sssField, toNat_rrrField]
  omega

theorem wordR2I_fields (h : typeField w = 6) : wordR2I (opcode7 w) (rrrField w) (sssField w) = w := by
  have htype : w.toNat / 8192 = 6 := toNat_typeField 6 h
  apply BitVec.eq_of_toNat_eq
  rw [wordR2I_toNat, toNat_opcode7, toNat_sssField, toNat_rrrField]
  omega

end Fields

/-! ### The statements -/

/-- Settles O1: it holds. The encoder writes the format line of the constructor's type, whose fields are read back as
they were written, and the type's table has the constructor at that opcode. -/
theorem decodeReadsBackEveryEncoding : Obligations.DecodeReadsBackEveryEncoding := by
  intro i w
  cases i with
  | hlt | nop => exact decode_wordR0 _ _
  | flg | flr | psw | psl | psh | ppw | ppl | pph => exact decode_wordR1 _ _ _
  | xch | xeq | xne | xlt | xgt | xle | xge | xat | xbt | xae | xbe
  | xyz | xnz | xyc | xnc | xyo | xno | xys | xns | xyp | xnp
  | not | neg | cmp | tst => exact decode_wordR2 _ _ _ _
  | add | adc | sub | sbb | and | orr | xor | mul | div
  | asl | asr | lsr | rtl | rtr | rlc | rrc | mov | lsl => exact decode_wordR3 _ _ _ _ _
  | ldw | stw | ldl | stl | ldh | sth => exact decode_wordM _ _ _ _ _
  | jmp | jeq | jne | jlt | jgt | jle | jge | jat | jbt | jae | jbe
  | jyz | jnz | jyc | jnc | jyo | jno | jys | jns | jyp | jnp
  | lop | cal | ret => exact decode_wordJ _ _ _ _
  | adi | sbi | aci | sib | ani | ori | xri | mvi => exact decode_wordR2I _ _ _ _

/-- Settles O2: it holds. What a type's table answers is written in the fields it was read from, and those fields are
the word but for the low bits of an R0 word. -/
theorem encodeWritesBackEveryDecodedWord : Obligations.EncodeWritesBackEveryDecodedWord := by
  intro w0 w1 i h
  rcases typeField_cases w0 with ht | ht | ht | ht | ht | ht | ht | ht
  · rw [decode_of_type0 w1 ht, assigned_eq_ok] at h
    obtain ⟨hexpand, hfirst, hsecond⟩ := writtenAs_of_decodeR0 h
    simp [ht, hexpand, hfirst, hsecond, wordR0_fields ht]
  · rw [decode_of_type1 w1 ht, assigned_eq_ok] at h
    obtain ⟨hexpand, hfirst, hsecond⟩ := writtenAs_of_decodeR1 h
    simp [ht, hexpand, hfirst, hsecond, wordR1_fields ht]
  · rw [decode_of_type2 w1 ht, assigned_eq_ok] at h
    obtain ⟨hexpand, hfirst, hsecond⟩ := writtenAs_of_decodeR2 h
    simp [ht, hexpand, hfirst, hsecond, wordR2_fields ht]
  · rw [decode_of_type3 w1 ht, assigned_eq_ok] at h
    obtain ⟨hexpand, hfirst, hsecond⟩ := writtenAs_of_decodeR3 h
    simp [ht, hexpand, hfirst, hsecond, wordR3_fields ht]
  · rw [decode_of_type4 w1 ht, assigned_eq_ok] at h
    obtain ⟨hexpand, hfirst, hsecond⟩ := writtenAs_of_decodeM h
    simp [ht, hexpand, hfirst, hsecond, wordM_fields ht]
  · rw [decode_of_type5 w1 ht, assigned_eq_ok] at h
    obtain ⟨hexpand, hfirst, hsecond⟩ := writtenAs_of_decodeJ h
    have hkept (hret : ∀ r q, i ≠ .ret r q) : encodeW1 i = some w1 := by rw [hsecond, if_neg (hret _ _)]
    simpa [ht, hexpand, hfirst, wordJ_fields ht] using hkept
  · rw [decode_of_type6 w1 ht, assigned_eq_ok] at h
    obtain ⟨hexpand, hfirst, hsecond⟩ := writtenAs_of_decodeR2I h
    simp [ht, hexpand, hfirst, hsecond, wordR2I_fields ht]
  · rw [decode_of_type7 w1 ht] at h
    cases h

/-- Settles O4: it holds, type by type, by the opcodes that each table has no row for. -/
theorem decoderRejectsExactlyTheUnassigned : Obligations.DecoderRejectsExactlyTheUnassigned := by
  intro w0 w1
  rcases typeField_cases w0 with ht | ht | ht | ht | ht | ht | ht | ht
  · simp [decode_of_type0 w1 ht, assigned_eq_error, decodeR0_eq_none, ht]
  · simp [decode_of_type1 w1 ht, assigned_eq_error, decodeR1_eq_none, ht]
  · simp [decode_of_type2 w1 ht, assigned_eq_error, decodeR2_eq_none, ht]
  · simp [decode_of_type3 w1 ht, assigned_eq_error, decodeR3_ne_none, ht]
  · simp [decode_of_type4 w1 ht, assigned_eq_error, decodeM_eq_none, ht]
  · simp [decode_of_type5 w1 ht, assigned_eq_error, decodeJ_eq_none, ht]
  · simp [decode_of_type6 w1 ht, assigned_eq_error, decodeR2I_eq_none, ht]
  · simp [decode_of_type7 w1 ht, ht]

/-- Settles O3: it holds, by O1, since each word is the encoding of its instruction. -/
theorem writtenWordsDecodeAsTheyStand : Obligations.WrittenWordsDecodeAsTheyStand :=
  ⟨decodeReadsBackEveryEncoding .nop 0,
    decodeReadsBackEveryEncoding (.psw .r1) 0,
    decodeReadsBackEveryEncoding (.xlt .r1 .r2) 0,
    decodeReadsBackEveryEncoding (.add .r1 .r2 .r3) 0,
    decodeReadsBackEveryEncoding (.ldw .rd .r1 2) 0,
    decodeReadsBackEveryEncoding (.jeq .r1 .r2 0x0040) 0,
    decodeReadsBackEveryEncoding (.adi .r1 .r2 15) 0⟩

end Sys2Proof

/-! ## O5, O6: the step around the decoder (`30_encoding.md` R104, `60_exceptions.md` R303) -/

namespace Sys2Proof.Machine

theorem fetch_of_cell {s : State} {w0 : Word} (hcell : s.cell s.ip = some w0) : fetch s = fetchRest w0 s := by
  have hread : memRead .fetch s.ip s = .next w0 := (memRead_eq_next _ _ _ _).2 hcell
  rw [fetch, hread, andThen_next]

/-- A fetch answers as the decoder does for the words at IP; the second one is needed for a two-word type only. -/
theorem fetch_eq_decoded {s : State} {w0 w1 : Word} (hfirst : s.cell s.ip = some w0)
    (hsecond : lengthOf w0 = some 2 → s.cell (s.ip + 1) = some w1) : fetch s = decoded (decode w0 w1) := by
  rw [fetch_of_cell hfirst, fetchRest]
  rcases lengthOf_cases w0 with hlen | hlen | hlen
  · simp only [hlen]
    rw [decode_one w0 0 w1 hlen]
  · have hread : memRead .fetch (s.ip + 1) s = .next w1 := (memRead_eq_next _ _ _ _).2 (hsecond hlen)
    simp only [hlen, hread, andThen_next]
  · rw [decode_type7 w0 w1 hlen]
    simp only [hlen, decoded]

/-- Settles O5: it holds, by `fetch_eq_decoded`. -/
theorem stepExecutesTheDecodedInstruction : Obligations.StepExecutesTheDecodedInstruction := by
  intro s w0 w1 i hrun hfirst hsecond hdec
  rw [step_running s hrun, fetch_eq_decoded hfirst hsecond, hdec, decoded, andThen_next]

/-- Settles O6: it holds, by `fetch_eq_decoded`; type 111 is of no length, so no second word is asked for. -/
theorem stepRefusesWordsWithoutMeaning : Obligations.StepRefusesWordsWithoutMeaning := by
  intro s w0 w1 hrun hfirst
  refine ⟨fun ht => ?_, fun hsecond hdec => ?_⟩
  · have hlen : lengthOf w0 = none := by rw [lengthOf_eq, ht]; rfl
    have hfetch := fetch_eq_decoded (w1 := w1) hfirst (by simp [hlen])
    rw [step_running s hrun, hfetch, decode_of_type7 w1 ht, decoded, andThen_refused]
  · rw [step_running s hrun, fetch_eq_decoded hfirst hsecond, hdec, decoded, andThen_refused]

end Sys2Proof.Machine

/-! ## O35: the pseudo-instructions (`30_encoding.md` R106) -/

namespace Sys2Proof.Machine

/-- A shift to the left by any count is a multiplication modulo 2^16; from 16 places on nothing is left (R220, D20). -/
theorem shiftLeft_eq_ofNat (v : Word) (n : Nat) : shiftLeft v n = BitVec.ofNat 16 (v.toNat * 2 ^ n) := by
  unfold shiftLeft
  split
  · rename_i hcount
    have hdvd : 2 ^ 16 ∣ v.toNat * 2 ^ n := Dvd.dvd.mul_left (pow_dvd_pow 2 hcount) _
    apply BitVec.eq_of_toNat_eq
    rw [BitVec.toNat_ofNat, Nat.mod_eq_zero_of_dvd hdvd]
    rfl
  · rfl

/-- MOV adds r0, which reads as zero (R160). -/
theorem exec_mov (r q : Reg) (s : State) : exec (.mov r q) s = finishAlu r (s.reg q) 1 s :=
  congrArg (finishAlu r · 1 s) (BitVec.add_zero (s.reg q))

/-- MVI adds its constant to r0 (R161). -/
theorem exec_mvi (r : Reg) (w : Word) (s : State) : exec (.mvi r w) s = finishAlu r w 2 s :=
  congrArg (finishAlu r · 2 s) (BitVec.zero_add w)

/-- LSL shifts as ASL does (R223). -/
theorem exec_lsl (r q t : Reg) (s : State) :
    exec (.lsl r q t) s = finishAlu r (BitVec.ofNat 16 ((s.reg q).toNat * 2 ^ (s.reg t).toNat)) 1 s :=
  congrArg (finishAlu r · 1 s) (shiftLeft_eq_ofNat (s.reg q) (s.reg t).toNat)

/-- Settles O35: it holds. Words and meaning are those of the expansion by definition, and each ends in `finishAlu` with
the value its rule names. -/
theorem pseudoInstructionsAreTheirExpansions : Obligations.PseudoInstructionsAreTheirExpansions := by
  intro r q t w s
  refine ⟨⟨rfl, rfl, ?_⟩, ⟨rfl, rfl, ?_⟩, ⟨rfl, rfl, ?_⟩⟩
  · rw [exec_mov]
    exact finishAlu_aluEffect r _ 1 s
  · rw [exec_mvi]
    exact finishAlu_aluEffect r w 2 s
  · rw [exec_lsl]
    exact finishAlu_aluEffect r _ 1 s

end Sys2Proof.Machine

/-! ## O11, O12: HLT and NOP (`40_program_control.md` R120, R121) -/

namespace Sys2Proof

/-- An R0 word decodes by its opcode alone: the three low bits hold no operand (`30_encoding.md` R82, R102). -/
theorem decode_r0_lowBits (op : BitVec 10) (x : BitVec 3) (w : Word) :
    decode (0b000#3 ++ op ++ x) w = assigned (decodeR0 op) := by
  have hop := op.isLt
  have hx := x.isLt
  have hnum : (0b000#3 ++ op ++ x).toNat = op.toNat * 8 + x.toNat := by
    simp [Machine.toNat_append_eq (0b000#3 ++ op) x, Machine.toNat_append_eq 0b000#3 op]
  have htype : typeField (0b000#3 ++ op ++ x) = 0 := by
    apply slice_eq
    have hzero : (0 : BitVec 3).toNat = 0 := rfl
    omega
  have hopcode : opcode10 (0b000#3 ++ op ++ x) = op := by
    apply slice_eq
    omega
  rw [decode_of_type0 w htype, hopcode]

end Sys2Proof

namespace Sys2Proof.Machine

theorem exec_hlt (s : State) : exec .hlt s = .next s.halt := rfl

theorem exec_nop (s : State) : exec .nop s = .next (s.advance 1) := rfl

/-- Settles O11: it holds. HLT answers `s.halt`, which differs from `s` in `halted` alone and so takes no step. -/
theorem hltStopsAtItsOwnWord : Obligations.HltStopsAtItsOwnWord := fun x w s =>
  ⟨decode_r0_lowBits 0 x w, s.halt, exec_hlt s, s.halt_halted, s.halt_ip, s.halt_sp, s.halt_fl, s.halt_reg, s.halt_lane,
    step_halted s.halt s.halt_halted⟩

/-- Settles O12: it holds. NOP answers `s.advance 1`, which differs from `s` in IP alone. -/
theorem nopOnlyAdvances : Obligations.NopOnlyAdvances := fun x w s =>
  ⟨decode_r0_lowBits 1 x w, s.advance 1, exec_nop s, s.advance_ip 1, s.advance_reg 1, s.advance_sp 1, s.advance_fl 1,
    s.advance_halted 1, s.advance_lane 1⟩

end Sys2Proof.Machine

/-! ## O14 to O17, O19: the address modes, the loads and the word store (`41_load_store.md` R131 to R137, R139, R141)

The loads of every mode go through `loadValue`, and every store through `effectiveAddress`. So one lemma says what the
three loads do with a value, whether it is the operand or a cell, and one each what the loads and the stores do where
the mode is refused. -/

namespace Sys2Proof.Machine

/-! ### Addresses -/

/-- A mode with a pointer goes on with what the cell under the pointer's address holds (`41_load_store.md` R131). -/
theorem pointer_of_cell {a p : Word} {s : State} (hcell : s.cell a = some p) : pointer a s = .next p :=
  (memRead_eq_next .read a s p).2 hcell

theorem andThen_pointer {α : Type} {a p : Word} {s : State} (f : Word → Result α) (hcell : s.cell a = some p) :
    andThen (pointer a s) f = f p := by
  rw [pointer_of_cell hcell, andThen_next]

/-- A register number with zeros above it is an operand word of `rd` and `rn` that names the register (R132, D23). -/
theorem operandRegister_code (r : Reg) (s : State) : operandRegister (0#13 ++ r.code) s = .next (s.reg r) := by
  have hcode := r.code.isLt
  have hnum : (0#13 ++ r.code).toNat = r.code.toNat := by simp [toNat_append_eq 0#13 r.code]
  have hhigh : (0#13 ++ r.code).extractLsb' 3 13 = 0 := by
    apply slice_eq
    have hzero : (0 : BitVec 13).toNat = 0 := rfl
    omega
  have hlow : (0#13 ++ r.code).extractLsb' 0 3 = r.code := by
    apply slice_eq
    omega
  rw [operandRegister_eq_next, hlow, Reg.ofCode_code]
  exact ⟨hhigh, rfl⟩

/-- In a register mode the operand words above 7 are those with a reserved bit set (R132, D23). -/
theorem operandFits_eq_false {m : Mode} (hm : m = .rd ∨ m = .rn) {w : Word} (hw : 7 < w.toNat) :
    m.operandFits w = false := by
  have hlt := w.isLt
  have hbits : w.extractLsb' 3 13 ≠ 0 := by
    intro hzero
    have hnum : w.toNat / 2 ^ 3 % 2 ^ 13 = 0 := by rw [← toNat_slice, hzero]; rfl
    omega
  obtain rfl | rfl := hm <;> exact beq_eq_false_iff_ne.2 hbits

/-! ### Loads -/

/-- What a load of two words leaves: `v` in register `r`, the next instruction, and all else as it was (D7). -/
def LoadEffect (r : Reg) (v : Word) (s t : State) : Prop := OnlyReg r v s t ∧ t.ip = s.ip + 2 ∧ Quiet s t

theorem setReg_advance_loadEffect (r : Reg) (v : Word) (s : State) :
    LoadEffect r v s ((s.setReg r v).advance 2) := by
  refine ⟨fun k => ?_, ?_, ?_⟩
  · rw [State.advance_reg, State.reg_setReg]
  · rw [State.advance_ip, State.setReg_ip]
  · simp [Quiet, SameBytes]

/-- A load completes where its mode gives a value, and leaves the merged register. -/
theorem load_loadEffect (g : Word → Word → Word) {m : Mode} (r : Reg) {w v : Word} {s : State}
    (hvalue : loadValue m w s = .next v) :
    ∃ u, load g m r w s = .next u ∧ LoadEffect r (g (s.reg r) v) s u :=
  ⟨_, (load_eq_next g m r w s _).2 ⟨v, hvalue, rfl⟩, setReg_advance_loadEffect r _ s⟩

/-- LDW, LDL and LDH complete and take the value `v`, its low byte into the low, and its low byte into the high byte of
the primary register (R136, R138, R139, R141). -/
def LoadsTake (m : Mode) (r : Reg) (w v : Word) (s : State) : Prop :=
  (∃ u, exec (.ldw m r w) s = .next u ∧ LoadEffect r v s u) ∧
  (∃ u, exec (.ldl m r w) s = .next u ∧
    LoadEffect r (BitVec.ofNat 16 ((s.reg r).toNat / 256 * 256 + v.toNat % 256)) s u) ∧
  (∃ u, exec (.ldh m r w) s = .next u ∧
    LoadEffect r (BitVec.ofNat 16 (v.toNat % 256 * 256 + (s.reg r).toNat % 256)) s u)

theorem loadsTake_of_loadValue {m : Mode} (r : Reg) {w v : Word} {s : State} (hvalue : loadValue m w s = .next v) :
    LoadsTake m r w v s := by
  unfold LoadsTake
  rw [← mergeLow_eq_ofNat, ← mergeHigh_eq_ofNat]
  exact ⟨load_loadEffect (fun _ v => v) r hvalue, load_loadEffect mergeLow r hvalue,
    load_loadEffect mergeHigh r hvalue⟩

theorem load_refused (g : Word → Word → Word) {m : Mode} (r : Reg) {w : Word} {s : State} {e : Refusal}
    (hvalue : loadValue m w s = .refused e) : load g m r w s = .refused e := by
  rw [load, hvalue, andThen_refused]

/-! ### Stores -/

/-- STW completes where its address is readable: its own cell is not read (R137). -/
theorem execStw_storeEffect {m : Mode} (r : Reg) {w a : Word} {s : State} (haddr : effectiveAddress m w s = .next a) :
    ∃ u, execStw m r w s = .next u ∧ StoreEffect a (s.reg r) s u := by
  refine ⟨_, ?_, setCell_advance_storeEffect a (s.reg r) s⟩
  rw [execStw, haddr, andThen_next, memWrite_eq, andThen_next]

/-- Each store is refused where its mode has no address, for the reason the mode gives. -/
theorem stores_refused {m : Mode} (r : Reg) {w : Word} {s : State} {e : Refusal}
    (haddr : effectiveAddress m w s = .refused e) :
    exec (.stw m r w) s = .refused e ∧ exec (.stl m r w) s = .refused e ∧ exec (.sth m r w) s = .refused e := by
  have hbyte (g : Word → Word → Word) : storeByte g m r w s = .refused e := by
    rw [storeByte, haddr, andThen_refused]
  have hword : execStw m r w s = .refused e := by
    rw [execStw, haddr, andThen_refused]
  exact ⟨hword, hbyte mergeLow, hbyte mergeHigh⟩

/-! ### The statements -/

/-- Settles O14: it holds. A sum of words is the word of the sum of their numbers; each mode is then its row of R131. -/
theorem effectiveAddressOfEveryMode : Obligations.EffectiveAddressOfEveryMode := by
  refine ⟨rfl, fun s w p r => ?_⟩
  simp only [BitVec.ofNat_add, BitVec.ofNat_toNat, BitVec.setWidth_eq]
  refine ⟨?i, ?id, ?in_, ?rd, ?rn, ?xd, ?xn, ?xo, ?xf, ?sd, ?sn, ?so, ?sxd, ?sxn, ?sxo, ?sxf⟩
  case i | id | xd | sd | sxd => rfl
  case rd => exact operandRegister_code r s
  case rn =>
    intro hcell
    rw [effectiveAddress, operandRegister_code, andThen_next, pointer_of_cell hcell]
  case in_ | xn | sn | sxn => exact pointer_of_cell
  case xo | xf | so | sxo | sxf => exact andThen_pointer _

/-- Settles O15: it holds; the value of mode `i` is the operand in every state. -/
theorem immediateLoadsComplete : Obligations.ImmediateLoadsComplete :=
  fun r w s => loadsTake_of_loadValue r ((loadValue_eq_next .i w s w).2 (.inl ⟨rfl, rfl⟩))

/-- Settles O16: it holds; the value of every other mode is the cell at its address. -/
theorem memoryLoadsComplete : Obligations.MemoryLoadsComplete :=
  fun m r w a v s hm haddr hcell =>
    loadsTake_of_loadValue r ((loadValue_eq_next m w s v).2 (.inr ⟨hm, a, haddr, hcell⟩))

/-- Settles O17: it holds, by `execStw_storeEffect`. -/
theorem wordStoreCompletes : Obligations.WordStoreCompletes :=
  fun _ r _ _ _ haddr => execStw_storeEffect r haddr

/-- Settles O19: it holds. Mode `i` has no address, and an operand word above 7 names no register. -/
theorem addressModeRefusals : Obligations.AddressModeRefusals := by
  intro r w s
  refine ⟨stores_refused r ((effectiveAddress_eq_refused .i w s _).2 (.inl ⟨rfl, rfl⟩)), fun m hm hw => ?_⟩
  have hfits := operandFits_eq_false hm hw
  have hvalue := (loadValue_eq_refused m w s _).2 ⟨hfits, rfl⟩
  obtain ⟨hstw, hstl, hsth⟩ := stores_refused r ((effectiveAddress_eq_refused m w s _).2 (.inr ⟨hfits, rfl⟩))
  exact ⟨load_refused (fun _ v => v) r hvalue, hstw, load_refused mergeLow r hvalue, hstl,
    load_refused mergeHigh r hvalue, hsth⟩

end Sys2Proof.Machine

/-! ## O23 to O26: the exchanges, and the jump on "Greater Than" (`42_move_exchange.md` R162 to R183, `46_jump_loop.md`
R250, R251, R256)

A conditional exchange and a conditional jump are each one rule with a condition as its argument. `Cond.Holds` says what
each condition asks of the flags, `Cond.number` which number it has, and `Cond.exchange` and `Cond.jump` which
instruction tests it. One case split ties each of them to the model, so `exchangeRule` and `jumpRule` hold of every
condition, and the statements name the ones they are about. -/

namespace Sys2Proof

/-- What a condition asks of the flags (`45_compare_flags.md` R241; D12 for "Greater Than"). -/
def Cond.Holds (k : Cond) (f : Machine.Flags) : Prop :=
  match k with
  | .equal | .zero => f.z = true
  | .notEqual | .notZero => f.z = false
  | .lessThan => f.s ≠ f.o
  | .greaterThan => f.z = false ∧ f.s = f.o
  | .lessEqual => f.z = true ∨ f.s ≠ f.o
  | .greaterEqual => f.s = f.o
  | .aboveThan => f.c = false ∧ f.z = false
  | .belowThan | .carry => f.c = true
  | .aboveEqual | .notCarry => f.c = false
  | .belowEqual => f.c = true ∨ f.z = true
  | .overflow => f.o = true
  | .notOverflow => f.o = false
  | .sign => f.s = true
  | .notSign => f.s = false
  | .parity => f.p = true
  | .notParity => f.p = false

/-- The number of a condition (`45_compare_flags.md` R241), which is the opcode of its exchange and of its jump
(`30_encoding.md` R95, R98). -/
def Cond.number (k : Cond) : BitVec 7 :=
  match k with
  | .equal => 1
  | .notEqual => 2
  | .lessThan => 3
  | .greaterThan => 4
  | .lessEqual => 5
  | .greaterEqual => 6
  | .aboveThan => 7
  | .belowThan => 8
  | .aboveEqual => 9
  | .belowEqual => 10
  | .zero => 11
  | .notZero => 12
  | .carry => 13
  | .notCarry => 14
  | .overflow => 15
  | .notOverflow => 16
  | .sign => 17
  | .notSign => 18
  | .parity => 19
  | .notParity => 20

/-- The exchange that tests a condition (`42_move_exchange.md` R164 to R183). -/
def Cond.exchange (k : Cond) : Reg → Reg → Instr :=
  match k with
  | .equal => .xeq
  | .notEqual => .xne
  | .lessThan => .xlt
  | .greaterThan => .xgt
  | .lessEqual => .xle
  | .greaterEqual => .xge
  | .aboveThan => .xat
  | .belowThan => .xbt
  | .aboveEqual => .xae
  | .belowEqual => .xbe
  | .zero => .xyz
  | .notZero => .xnz
  | .carry => .xyc
  | .notCarry => .xnc
  | .overflow => .xyo
  | .notOverflow => .xno
  | .sign => .xys
  | .notSign => .xns
  | .parity => .xyp
  | .notParity => .xnp

/-- The jump that tests a condition (`46_jump_loop.md` R253 to R272). -/
def Cond.jump (k : Cond) : Reg → Reg → Word → Instr :=
  match k with
  | .equal => .jeq
  | .notEqual => .jne
  | .lessThan => .jlt
  | .greaterThan => .jgt
  | .lessEqual => .jle
  | .greaterEqual => .jge
  | .aboveThan => .jat
  | .belowThan => .jbt
  | .aboveEqual => .jae
  | .belowEqual => .jbe
  | .zero => .jyz
  | .notZero => .jnz
  | .carry => .jyc
  | .notCarry => .jnc
  | .overflow => .jyo
  | .notOverflow => .jno
  | .sign => .jys
  | .notSign => .jns
  | .parity => .jyp
  | .notParity => .jnp

theorem decode_exchange (k : Cond) (r q : Reg) (w : Word) :
    decode (wordR2 k.number r q) w = .ok (k.exchange r q) := by
  rw [decode_wordR2]
  cases k <;> rfl

theorem decode_jump (k : Cond) (r q : Reg) (w : Word) :
    decode (wordJ k.number r q) w = .ok (k.jump r q w) := by
  rw [decode_wordJ]
  cases k <;> rfl

end Sys2Proof

namespace Sys2Proof.Machine

/-- The model tests of the flags what the condition asks. -/
theorem condHolds_iff (k : Cond) (f : Flags) : condHolds k f = true ↔ k.Holds f := by
  cases k with
  | equal | zero | belowThan | carry | overflow | sign | parity => exact Iff.rfl
  | notEqual | notZero | aboveEqual | notCarry | notOverflow | notSign | notParity =>
    exact iff_of_eq (Bool.not_eq_true_eq_eq_false _)
  | lessThan => exact bne_iff_ne
  | greaterEqual => exact beq_iff_eq
  | greaterThan | lessEqual | aboveThan | belowEqual => simp [condHolds, Cond.Holds]

theorem exec_exchange (k : Cond) (r q : Reg) (s : State) : exec (k.exchange r q) s = copyIf k r q s := by
  cases k <;> rfl

theorem exec_jump (k : Cond) (r q : Reg) (w : Word) (s : State) :
    exec (k.jump r q w) s = compareAndJump k r q w s := by
  cases k <;> rfl

/-- A meaning that keeps FL, SP, `halted` and memory is quiet where it completes. -/
theorem quiet_of_keeps {x : Result State} {s t : State} (hstatus : LeavesStatus s.fl s.sp s.halted x)
    (hmem : Ensures (SameMem s) x) (h : x = .next t) : Quiet s t := by
  obtain ⟨hfl, hsp, hhalted⟩ := hstatus t h
  exact ⟨hsp, hfl, hhalted, (hmem t h).sameBytes⟩

/-! ### The conditional exchange -/

theorem copyIf_of_holds {k : Cond} (r q : Reg) {s : State} (hcond : k.Holds s.fl) :
    copyIf k r q s = .next ((s.setReg r (s.reg q)).advance 1) := by
  rw [copyIf, if_pos ((condHolds_iff k s.fl).2 hcond)]

theorem copyIf_of_not_holds {k : Cond} (r q : Reg) {s : State} (hcond : ¬k.Holds s.fl) :
    copyIf k r q s = .next (s.advance 1) := by
  rw [copyIf, if_neg (mt (condHolds_iff k s.fl).1 hcond)]

theorem onlyReg_setReg_advance (r : Reg) (v len : Word) (s : State) :
    OnlyReg r v s ((s.setReg r v).advance len) := by
  intro k
  rw [State.advance_reg, State.reg_setReg]

/-- Every conditional exchange follows the rule of its family for the condition it tests (R163, D38). -/
theorem exchangeRule (k : Cond) : Claims.ExchangeRule k.exchange k.number k.Holds := by
  intro r q w s
  rw [exec_exchange]
  have hquiet {u : State} : copyIf k r q s = .next u → Quiet s u :=
    quiet_of_keeps (copyIf_leavesStatus k r q s) (copyIf_keepsMem k r q s)
  refine ⟨decode_exchange k r q w, ?_⟩
  by_cases hcond : k.Holds s.fl
  · have hcopy := copyIf_of_holds r q hcond
    exact ⟨_, hcopy, fun _ => onlyReg_setReg_advance r (s.reg q) 1 s, fun hnot => absurd hcond hnot,
      copyIf_endsAt k r q s _ hcopy, hquiet hcopy⟩
  · have hcopy := copyIf_of_not_holds r q hcond
    exact ⟨_, hcopy, fun hyes => absurd hyes hcond, fun _ => s.advance_reg 1,
      copyIf_endsAt k r q s _ hcopy, hquiet hcopy⟩

/-! ### The conditional jump -/

/-- A comparing jump sets the flags of its comparison and goes where its condition sends it. -/
theorem compareAndJump_eq (k : Cond) (r q : Reg) (w : Word) (s : State) :
    compareAndJump k r q w s =
      .next ((jumpCompare r q s).setIp (if condHolds k (comparedFlags r q s) then w else s.ip + 2)) := by
  rw [compareAndJump, jumpIf_eq, jumpCompare_ip, jumpCompare_fl_eq_comparedFlags]

/-- Every conditional jump follows the rule of its family for the condition it tests (R250, R251). -/
theorem jumpRule (k : Cond) : Claims.JumpRule k.jump k.number k.Holds := by
  intro r q w s
  rw [exec_jump]
  have hjump := compareAndJump_eq k r q w s
  obtain ⟨hfl, hsp, hhalted⟩ := compareAndJump_leavesStatus k r q w s _ hjump
  have hbytes := (compareAndJump_keepsMem k r q w s _ hjump).sameBytes
  refine ⟨decode_jump k r q w, _, hjump, hfl, fun hcond => ?_, fun hcond => ?_, fun j => ?_, hsp, hhalted, hbytes⟩
  · rw [hfl, ← condHolds_iff] at hcond
    exact if_pos hcond
  · rw [hfl, ← condHolds_iff] at hcond
    exact if_neg hcond
  · rw [State.setIp_reg, jumpCompare_reg]

/-! ### The exchange without a condition -/

/-- Away from r0 a register reads as written. -/
theorem reg_setReg_of_ne_r0 {k : Reg} (hk : k ≠ .r0) (r : Reg) (v : Word) (s : State) :
    (s.setReg r v).reg k = if k = r then v else s.reg k := by
  rw [State.reg_setReg]
  by_cases hr : k = r
  · rw [if_pos ⟨hr, hr ▸ hk⟩, if_pos hr]
  · rw [if_neg fun h => hr h.1, if_neg hr]

/-- Both registers hold the other's old value after both writes, also where the two are one; r0 stays zero. -/
theorem reg_setReg_swap (r q k : Reg) (s : State) :
    ((s.setReg r (s.reg q)).setReg q (s.reg r)).reg k =
      if k = .r0 then 0 else if k = r then s.reg q else if k = q then s.reg r else s.reg k := by
  by_cases hzero : k = .r0
  · rw [if_pos hzero, hzero, State.reg_r0]
  · rw [if_neg hzero, reg_setReg_of_ne_r0 hzero, reg_setReg_of_ne_r0 hzero]
    by_cases hr : k = r
    · rw [if_pos hr, if_pos hr, ite_eq_right_iff]
      intro hq
      rw [← hr, hq]
    · rw [if_neg hr, if_neg hr]

theorem exec_xch (r q : Reg) (s : State) :
    exec (.xch r q) s = .next (((s.setReg r (s.reg q)).setReg q (s.reg r)).advance 1) := rfl

/-! ### The statements -/

/-- Settles O23: it holds, by `reg_setReg_swap`. -/
theorem xchSwapsTheRegisters : Obligations.XchSwapsTheRegisters := by
  intro r q w s
  have hexec := exec_xch r q s
  refine ⟨decode_wordR2 0 r q w, _, hexec, fun k => ?_, execXch_endsAt r q s _ hexec,
    quiet_of_keeps (execXch_leavesStatus r q s) (execXch_keepsMem r q s) hexec⟩
  rw [State.advance_reg, reg_setReg_swap]

/-- Settles O24: it holds, by `exchangeRule` for each of the nine conditions. -/
theorem exchangesOnOrderConditions : Obligations.ExchangesOnOrderConditions :=
  ⟨exchangeRule .equal, exchangeRule .notEqual, exchangeRule .lessThan, exchangeRule .lessEqual,
    exchangeRule .greaterEqual, exchangeRule .aboveThan, exchangeRule .belowThan, exchangeRule .aboveEqual,
    exchangeRule .belowEqual⟩

/-- Settles O25: it holds, by `exchangeRule` for each of the ten conditions. -/
theorem exchangesOnOneFlag : Obligations.ExchangesOnOneFlag :=
  ⟨exchangeRule .zero, exchangeRule .notZero, exchangeRule .carry, exchangeRule .notCarry, exchangeRule .overflow,
    exchangeRule .notOverflow, exchangeRule .sign, exchangeRule .notSign, exchangeRule .parity,
    exchangeRule .notParity⟩

/-- Settles O26: it holds, by the two rules for the one condition that D12 takes for both. -/
theorem greaterThanExchangeAndJump : Obligations.GreaterThanExchangeAndJump :=
  ⟨exchangeRule .greaterThan, jumpRule .greaterThan⟩

end Sys2Proof.Machine

/-! ## O27 to O30: sums, differences and logic (`43_arithmetic_logic.md` R191 to R197, R200, R201, R203 to R209)

Each of these instructions is a row of its opcode table and ends in `finishAlu`, so one lemma per instruction type gives
the rule of the family. The statements name the results in integers; the lemmas on values turn them into the operations
of words that the model uses. -/

namespace Sys2Proof.Machine

/-! ### The results, as numbers -/

theorem ofNat_toNat_add (a b : Word) : BitVec.ofNat 16 (a.toNat + b.toNat) = a + b := by
  rw [BitVec.ofNat_add, BitVec.ofNat_toNat, BitVec.ofNat_toNat, BitVec.setWidth_eq, BitVec.setWidth_eq]

theorem ofInt_sub_toNat (x : Int) (b : Word) : BitVec.ofInt 16 (x - b.toNat) = BitVec.ofInt 16 x - b := by
  rw [Int.sub_eq_add_neg, BitVec.ofInt_add, BitVec.ofInt_neg, BitVec.ofInt_natCast, BitVec.ofNat_toNat,
    BitVec.setWidth_eq, BitVec.sub_eq_add_neg]

theorem ofInt_toNat_word (a : Word) : BitVec.ofInt 16 a.toNat = a := by
  rw [BitVec.ofInt_natCast, BitVec.ofNat_toNat, BitVec.setWidth_eq]

/-- The carry as a word is its number 0 or 1 (R210). -/
theorem toNat_carryWord (f : Flags) : (carryWord f).toNat = f.c.toNat := by
  unfold carryWord
  cases f.c <;> rfl

theorem ofNat_add_carry (a b : Word) (f : Flags) :
    BitVec.ofNat 16 (a.toNat + b.toNat + f.c.toNat) = a + b + carryWord f := by
  rw [BitVec.ofNat_add, ofNat_toNat_add, ← toNat_carryWord, BitVec.ofNat_toNat, BitVec.setWidth_eq]

theorem ofInt_sub_borrow (a b : Word) (f : Flags) :
    BitVec.ofInt 16 ((a.toNat : Int) - b.toNat - f.c.toNat) = a - b - carryWord f := by
  rw [← toNat_carryWord, ofInt_sub_toNat, ofInt_sub_toNat, ofInt_toNat_word]

theorem ofNat_sub_toNat (a : Word) : BitVec.ofNat 16 (65535 - a.toNat) = ~~~a := by
  apply BitVec.eq_of_toNat_eq
  rw [BitVec.toNat_ofNat, BitVec.toNat_not]
  omega

theorem ofInt_neg_toNat (a : Word) : BitVec.ofInt 16 (-(a.toNat : Int)) = 0 - a := by
  rw [BitVec.ofInt_neg, ofInt_toNat_word]
  exact (BitVec.zero_sub a).symm

/-! ### The rule of each instruction type -/

/-- An R3 row that ends in `finishAlu` with the value `f` follows the rule of its family (R190, R191). -/
theorem r3Result_of_finishAlu {mk : Reg → Reg → Reg → Instr} {op : BitVec 4} {f : State → Word → Word → Word}
    (hrow : ∀ r q t, decodeR3 op r q t = some (mk r q t))
    (hexec : ∀ r q t s, exec (mk r q t) s = finishAlu r (f s (s.reg q) (s.reg t)) 1 s) :
    Claims.R3Result mk op f := by
  intro r q t w s
  rw [hexec]
  exact ⟨(decode_wordR3 op r q t w).trans (congrArg assigned (hrow r q t)), finishAlu_aluEffect r _ 1 s⟩

/-- The same for an R2I row, which is two words long (R203). -/
theorem r2iResult_of_finishAlu {mk : Reg → Reg → Word → Instr} {op : BitVec 7} {f : State → Word → Word → Word}
    (hrow : ∀ r q w, decodeR2I op r q w = some (mk r q w))
    (hexec : ∀ r q w s, exec (mk r q w) s = finishAlu r (f s (s.reg q) w) 2 s) :
    Claims.R2IResult mk op f := by
  intro r q w s
  rw [hexec]
  exact ⟨(decode_wordR2I op r q w).trans (congrArg assigned (hrow r q w)), finishAlu_aluEffect r _ 2 s⟩

/-- The same for an R2 row of one source (R200). -/
theorem r2Result_of_finishAlu {mk : Reg → Reg → Instr} {op : BitVec 7} {f : Word → Word}
    (hrow : ∀ r q, decodeR2 op r q = some (mk r q))
    (hexec : ∀ r q s, exec (mk r q) s = finishAlu r (f (s.reg q)) 1 s) : Claims.R2Result mk op f := by
  intro r q w s
  rw [hexec]
  exact ⟨(decode_wordR2 op r q w).trans (congrArg assigned (hrow r q)), finishAlu_aluEffect r _ 1 s⟩

/-! ### The statements -/

/-- Settles O27: it holds. With the results in words, each conjunct is the rule of its type for one row of R96. -/
theorem addSubAndLogicResults : Obligations.AddSubAndLogicResults := by
  unfold Obligations.AddSubAndLogicResults
  simp only [ofNat_toNat_add, ofInt_sub_toNat, ofInt_toNat_word]
  refine ⟨?add, ?sub, ?and, ?orr, ?xor⟩
  case add | sub | and | orr | xor => exact r3Result_of_finishAlu (fun _ _ _ => rfl) (fun _ _ _ _ => rfl)

/-- Settles O28: it holds; the carry that counts is the one of the state before FL is drawn. -/
theorem carryArithmeticResults : Obligations.CarryArithmeticResults := by
  unfold Obligations.CarryArithmeticResults
  simp only [ofNat_add_carry, ofInt_sub_borrow]
  refine ⟨?adc, ?sbb, ?aci, ?sib⟩
  case adc | sbb => exact r3Result_of_finishAlu (fun _ _ _ => rfl) (fun _ _ _ _ => rfl)
  case aci | sib => exact r2iResult_of_finishAlu (fun _ _ _ => rfl) (fun _ _ _ _ => rfl)

/-- Settles O29: it holds, by the rule of the R2 type for two rows of R95. -/
theorem notAndNegResults : Obligations.NotAndNegResults := by
  unfold Obligations.NotAndNegResults
  simp only [ofNat_sub_toNat, ofInt_neg_toNat]
  refine ⟨?not, ?neg⟩
  case not | neg => exact r2Result_of_finishAlu (fun _ _ => rfl) (fun _ _ _ => rfl)

/-- Settles O30: it holds, by the rule of the R2I type for five rows of R99. -/
theorem immediateResults : Obligations.ImmediateResults := by
  unfold Obligations.ImmediateResults
  simp only [ofNat_toNat_add, ofInt_sub_toNat, ofInt_toNat_word]
  refine ⟨?adi, ?sbi, ?ani, ?ori, ?xri⟩
  case adi | sbi | ani | ori | xri => exact r2iResult_of_finishAlu (fun _ _ _ => rfl) (fun _ _ _ _ => rfl)

end Sys2Proof.Machine

/-! ## O31 to O34: MUL and DIV (`43_arithmetic_logic.md` R198, R199; D17 to D19)

Both write a register pair: one word to the primary register, one to the register before it. `PairEffect` names what is
left then. MUL writes the pair in one order and DIV in the other, which is no difference, since the two are never one
register. -/

namespace Sys2Proof.Machine

/-! ### A register pair -/

/-- What MUL and DIV leave: `v` in `r`, `x` in `h` unless that is r0, the next instruction, and all but FL as it was. -/
def PairEffect (r h : Reg) (v x : Word) (s t : State) : Prop :=
  (∀ k : Reg, t.reg k = if k = r then v else if k = h ∧ h ≠ .r0 then x else s.reg k) ∧
    t.ip = s.ip + 1 ∧ t.sp = s.sp ∧ t.halted = s.halted ∧ SameBytes s t

theorem ne_r0_of_before {r h : Reg} (hr : Reg.before r = some h) : r ≠ .r0 := by
  rintro rfl
  cases hr

/-- The write of `h` and then of `r`, which is the order of MUL. -/
theorem reg_setReg_before_first {r h : Reg} (hr : Reg.before r = some h) (v x : Word) (s : State) (k : Reg) :
    ((s.setReg h x).setReg r v).reg k = if k = r then v else if k = h ∧ h ≠ .r0 then x else s.reg k := by
  simp only [State.reg_setReg, ne_r0_of_before hr, ne_eq, not_false_eq_true, and_true]

/-- The write of `r` and then of `h`, which is the order of DIV, reads the same. -/
theorem reg_setReg_before_last {r h : Reg} (hr : Reg.before r = some h) (v x : Word) (s : State) (k : Reg) :
    ((s.setReg r v).setReg h x).reg k = if k = r then v else if k = h ∧ h ≠ .r0 then x else s.reg k := by
  by_cases hk : k = r
  · have hkh : k ≠ h := hk ▸ (before_ne r h hr).symm
    rw [State.reg_setReg_ne _ _ _ _ hkh, State.reg_setReg, if_pos hk, if_pos ⟨hk, ne_r0_of_before hr⟩]
  · rw [State.reg_setReg, State.reg_setReg_ne _ _ _ _ hk, if_neg hk]

/-- An arithmetic instruction after a write of a register leaves both writes, and all else but FL as it was. -/
theorem finishAlu_setReg (a b : Reg) (v x : Word) (s : State) :
    ∃ u, finishAlu a v 1 (s.setReg b x) = .next u ∧ (∀ k, u.reg k = ((s.setReg b x).setReg a v).reg k) ∧
      u.ip = s.ip + 1 ∧ u.sp = s.sp ∧ u.halted = s.halted ∧ SameBytes s u := by
  refine ⟨_, finishAlu_eq a v 1 _, fun k => ?_, ?_⟩
  · rw [State.advance_reg, State.drawFlags_reg]
  · simp [SameBytes]

theorem finishAlu_pairEffect {r h : Reg} (hr : Reg.before r = some h) (v x : Word) (s : State) :
    ∃ u, finishAlu r v 1 (s.setReg h x) = .next u ∧ PairEffect r h v x s u := by
  obtain ⟨u, hu, hreg, hframe⟩ := finishAlu_setReg r h v x s
  exact ⟨u, hu, fun k => (hreg k).trans (reg_setReg_before_first hr v x s k), hframe⟩

theorem finishAlu_before_pairEffect {r h : Reg} (hr : Reg.before r = some h) (v x : Word) (s : State) :
    ∃ u, finishAlu h x 1 (s.setReg r v) = .next u ∧ PairEffect r h v x s u := by
  obtain ⟨u, hu, hreg, hframe⟩ := finishAlu_setReg h r x v s
  exact ⟨u, hu, fun k => (hreg k).trans (reg_setReg_before_last hr v x s k), hframe⟩

/-! ### Multiplication -/

/-- MUL completes where there is a register before the primary one. -/
theorem exec_mul_pairEffect {r h : Reg} (hr : Reg.before r = some h) (q t : Reg) (s : State) :
    ∃ u, exec (.mul r q t) s = .next u ∧
      PairEffect r h (BitVec.ofNat 16 (product (s.reg q) (s.reg t)))
        (BitVec.ofNat 16 (product (s.reg q) (s.reg t) / 2 ^ 16)) s u := by
  have hbefore := (registerBefore_eq_next r h).2 hr
  rw [exec, execMul, hbefore, andThen_next]
  exact finishAlu_pairEffect hr _ _ s

theorem product_lt (a b : Word) : product a b < 65536 * 65536 := Nat.mul_lt_mul'' a.isLt b.isLt

/-- Two words hold every product of two words. -/
theorem product_eq_halves (a b : Word) :
    (BitVec.ofNat 16 (product a b / 2 ^ 16)).toNat * 65536 + (BitVec.ofNat 16 (product a b)).toNat =
      a.toNat * b.toNat := by
  have hlt := product_lt a b
  rw [BitVec.toNat_ofNat, BitVec.toNat_ofNat, ← product]
  omega

/-! ### Division -/

theorem exec_div {r h q g : Reg} (hr : Reg.before r = some h) (hq : Reg.before q = some g) (t : Reg) (s : State) :
    exec (.div r q t) s = divideInto r h (dividend (s.reg g) (s.reg q)) (s.reg t).toNat s := by
  have hprimary := (registerBefore_eq_next r h).2 hr
  have hsecondary := (registerBefore_eq_next q g).2 hq
  rw [exec, execDiv, hprimary, andThen_next, hsecondary, andThen_next]

section Division
variable {r h : Reg} {n d : Nat} (s : State)

/-- A division whose quotient fits leaves quotient and modulus (R199). -/
theorem divideInto_of_fits (hr : Reg.before r = some h) (hd : d ≠ 0) (hfits : n / d < 2 ^ 16) :
    ∃ u, divideInto r h n d s = .next u ∧ PairEffect r h (BitVec.ofNat 16 (n / d)) (BitVec.ofNat 16 (n % d)) s u := by
  rw [divideInto, if_neg hd, if_pos hfits]
  exact finishAlu_before_pairEffect hr _ _ s

/-- A division whose quotient does not fit leaves free values in the same two registers (R199, D18). -/
theorem divideInto_of_not_fits (hr : Reg.before r = some h) (hd : d ≠ 0) (hlarge : ¬n / d < 2 ^ 16) :
    ∃ u, divideInto r h n d s = .next u ∧
      PairEffect r h (Config.freeQuotient s.draws) (Config.freeRemainder s.draws) s u := by
  rw [divideInto, if_neg hd, if_neg hlarge]
  exact finishAlu_before_pairEffect hr _ _ s

theorem divideInto_zero : divideInto r h n 0 s = .fault .divideByZero := rfl

/-- A division by a number that is not zero completes. -/
theorem divideInto_of_ne_zero (r h : Reg) (n : Nat) (hd : d ≠ 0) : ∃ u, divideInto r h n d s = .next u := by
  rw [divideInto, if_neg hd]
  split <;> exact ⟨_, rfl⟩

theorem divideInto_eq_fault (e : Fault) : divideInto r h n d s = .fault e ↔ d = 0 ∧ e = .divideByZero := by
  by_cases hd : d = 0
  · simp [hd, divideInto_zero, eq_comm]
  · obtain ⟨u, hu⟩ := divideInto_of_ne_zero s r h n hd
    simp [hd, hu]

theorem divideInto_ne_refused (e : Refusal) : divideInto r h n d s ≠ .refused e := by
  by_cases hd : d = 0
  · simp [hd, divideInto_zero]
  · obtain ⟨u, hu⟩ := divideInto_of_ne_zero s r h n hd
    simp [hu]

end Division

/-- The quotient fits 16 bits where the dividend is below 2^16 divisors. -/
theorem quotient_fits_iff {n d : Nat} (hd : d ≠ 0) : n / d < 2 ^ 16 ↔ n < 65536 * d :=
  Nat.div_lt_iff_lt_mul (Nat.pos_of_ne_zero hd)

/-- Quotient and modulus as words make up the dividend where the quotient fits; the modulus is below a word anyway. -/
theorem quotient_modulus_words {n : Nat} {d : Word} (hd : d.toNat ≠ 0) (hfits : n / d.toNat < 2 ^ 16) :
    n = d.toNat * (BitVec.ofNat 16 (n / d.toNat)).toNat + (BitVec.ofNat 16 (n % d.toNat)).toNat ∧
      (BitVec.ofNat 16 (n % d.toNat)).toNat < d.toNat := by
  have hmod := Nat.mod_lt n (Nat.pos_of_ne_zero hd)
  rw [BitVec.toNat_ofNat, BitVec.toNat_ofNat, Nat.mod_eq_of_lt hfits, Nat.mod_eq_of_lt (hmod.trans d.isLt)]
  exact ⟨(Nat.div_add_mod n d.toNat).symm, hmod⟩

/-! ### Where they stop -/

/-- Every register but r0 has one before it. -/
theorem eq_r0_or_before (r : Reg) : r = .r0 ∨ r ≠ .r0 ∧ ∃ h, Reg.before r = some h := by
  cases r with
  | r0 => exact .inl rfl
  | _ => exact .inr ⟨nofun, _, rfl⟩

/-- MUL is refused exactly where no register is before its primary one (R198, D19). -/
theorem exec_mul_eq_refused (r q t : Reg) (s : State) (e : Refusal) :
    exec (.mul r q t) s = .refused e ↔ r = .r0 ∧ e = .noRegisterBeforeR0 := by
  simp [exec, execMul, andThen_eq_refused, registerBefore_eq_refused, finishAlu_eq]

theorem exec_div_r0_primary (q t : Reg) (s : State) : exec (.div .r0 q t) s = .refused .noRegisterBeforeR0 := rfl

theorem exec_div_r0_secondary (r t : Reg) (s : State) : exec (.div r .r0 t) s = .refused .noRegisterBeforeR0 := by
  cases r <;> rfl

/-- DIV is refused where a pair would start before r0, and divides by the tertiary register otherwise (R199, D19). -/
theorem exec_div_cases (r q t : Reg) (s : State) :
    ((r = .r0 ∨ q = .r0) ∧ exec (.div r q t) s = .refused .noRegisterBeforeR0) ∨
      (r ≠ .r0 ∧ q ≠ .r0 ∧ ∃ h n, exec (.div r q t) s = divideInto r h n (s.reg t).toNat s) := by
  obtain rfl | ⟨hr0, h, hr⟩ := eq_r0_or_before r
  · exact .inl ⟨.inl rfl, exec_div_r0_primary q t s⟩
  obtain rfl | ⟨hq0, g, hq⟩ := eq_r0_or_before q
  · exact .inl ⟨.inr rfl, exec_div_r0_secondary r t s⟩
  · exact .inr ⟨hr0, hq0, h, _, exec_div hr hq t s⟩

/-! ### The statements -/

/-- Settles O31: it holds; the pair that MUL leaves holds the product by `product_eq_halves`. -/
theorem mulWritesTheProductPair : Obligations.MulWritesTheProductPair := by
  intro r h q t w s hr
  obtain ⟨u, hexec, heffect⟩ := exec_mul_pairEffect hr q t s
  exact ⟨decode_wordR3 7 r q t w, u, _, _, hexec, product_eq_halves _ _, heffect⟩

/-- Settles O32: it holds, by `divideInto_of_fits`; the dividend is below 2^16 divisors, so the quotient fits. -/
theorem divWritesQuotientAndModulus : Obligations.DivWritesQuotientAndModulus := by
  intro r h q g t w s hr hq ht hsmall
  have hd : (s.reg t).toNat ≠ 0 := BitVec.toNat_ne.1 ht
  have hfits := (quotient_fits_iff hd).2 hsmall
  obtain ⟨u, hdivide, heffect⟩ := divideInto_of_fits s hr hd hfits
  obtain ⟨hsum, hmod⟩ := quotient_modulus_words hd hfits
  exact ⟨decode_wordR3 8 r q t w, u, _, _, (exec_div hr hq t s).trans hdivide, hsum, hmod, heffect⟩

/-- Settles O33: it holds, by `divideInto_of_not_fits`, whatever the two free values are. -/
theorem divWithLargeQuotientCompletes : Obligations.DivWithLargeQuotientCompletes := by
  intro r h q g t s hr hq ht hlarge
  have hd : (s.reg t).toNat ≠ 0 := BitVec.toNat_ne.1 ht
  obtain ⟨u, hdivide, hreg, hframe⟩ := divideInto_of_not_fits s hr hd (mt (quotient_fits_iff hd).1 hlarge.not_gt)
  refine ⟨u, (exec_div hr hq t s).trans hdivide, fun k hkr hkh => ?_, State.reg_r0 u, hframe⟩
  rw [hreg k, if_neg hkr, if_neg fun hk => hkh hk.1]

/-- Settles O34: it holds, by `exec_mul_eq_refused` and the cases of DIV. -/
theorem mulAndDivStopExactlyHere : Obligations.MulAndDivStopExactlyHere := by
  intro r q t s
  refine ⟨(exec_mul_eq_refused r q t s _).trans (and_iff_left rfl), ?_⟩
  obtain ⟨hr0, hdiv⟩ | ⟨hr, hq, h, n, hdiv⟩ := exec_div_cases r q t s
  · rw [hdiv]
    exact ⟨iff_of_true rfl hr0, iff_of_false nofun fun ⟨hr, hq, _⟩ => hr0.elim hr hq⟩
  · rw [hdiv, divideInto_eq_fault, ← BitVec.toNat_inj]
    exact ⟨iff_of_false (divideInto_ne_refused s _) (not_or.2 ⟨hr, hq⟩),
      fun ⟨hzero, _⟩ => ⟨hr, hq, hzero⟩, fun ⟨_, _, hzero⟩ => ⟨hzero, rfl⟩⟩

end Sys2Proof.Machine

/-! ## O57: the draws (`43_arithmetic_logic.md` R190; D6, D35)

FL after every instruction is `flagsAfter`, by `exec_fl`. What is left is the draw counter: `drawsAfter` gives it, and
one lemma per shared end and one case split over the instructions, `exec_drawsAfter`, tie it to the model. -/

namespace Sys2Proof.Machine

/-- The draw counter stands at `n`. -/
def DrawsAt (n : Nat) (t : State) : Prop := t.draws = n

/-- The draw counter after instruction `i`: an instruction that leaves FL open has drawn once (log entry 6). -/
def drawsAfter (i : Instr) (s : State) : Nat := if i.leavesFlagsOpen then s.draws + 1 else s.draws

/-! ### The shared ends of meanings -/

theorem finishAlu_draws (r : Reg) (v len : Word) (s : State) :
    Ensures (DrawsAt (s.draws + 1)) (finishAlu r v len s) := by
  simp [finishAlu_eq, DrawsAt]

theorem copyIf_draws (k : Cond) (r q : Reg) (s : State) : Ensures (DrawsAt s.draws) (copyIf k r q s) := by
  unfold copyIf
  split <;> simp [DrawsAt]

theorem load_draws (g : Word → Word → Word) (m : Mode) (r : Reg) (w : Word) (s : State) :
    Ensures (DrawsAt s.draws) (load g m r w s) := by
  intro t h
  obtain ⟨v, -, rfl⟩ := (load_eq_next g m r w s t).1 h
  simp [DrawsAt]

theorem storeByte_draws (g : Word → Word → Word) (m : Mode) (r : Reg) (w : Word) (s : State) :
    Ensures (DrawsAt s.draws) (storeByte g m r w s) := by
  intro t h
  obtain ⟨a, old, -, -, rfl⟩ := (storeByte_eq_next g m r w s t).1 h
  simp [DrawsAt]

theorem pushAndGo_draws (v : Word) (s : State) : Ensures (DrawsAt s.draws) (pushAndGo v s) := by
  simp [pushAndGo, DrawsAt]

theorem popInto_draws (g : Word → Word → Word) (r : Reg) (s : State) :
    Ensures (DrawsAt s.draws) (popInto g r s) := by
  refine ensures_andThen fun p hp => ?_
  obtain ⟨-, hs⟩ := (pop_eq_next s p).1 hp
  simp [hs, DrawsAt]

/-- A division that completes draws once, also where its two results are free values of the same draw (log entry 5). -/
theorem divideInto_draws (r h : Reg) (n d : Nat) (s : State) :
    Ensures (DrawsAt (s.draws + 1)) (divideInto r h n d s) := by
  unfold divideInto
  split
  · exact ensures_fault _ _
  · split <;> simp [finishAlu_eq, DrawsAt]

theorem compareAndJump_draws (k : Cond) (r q : Reg) (w : Word) (s : State) :
    Ensures (DrawsAt s.draws) (compareAndJump k r q w s) := by
  simp [compareAndJump, jumpIf_eq, DrawsAt]

/-! ### The meanings that share no end -/

theorem execStw_draws (m : Mode) (r : Reg) (w : Word) (s : State) :
    Ensures (DrawsAt s.draws) (execStw m r w s) :=
  ensures_andThen fun _ _ => by simp [DrawsAt]

theorem execXch_draws (r q : Reg) (s : State) : Ensures (DrawsAt s.draws) (execXch r q s) := by
  simp [execXch, DrawsAt]

theorem execMul_draws (r q t : Reg) (s : State) : Ensures (DrawsAt (s.draws + 1)) (execMul r q t s) :=
  ensures_andThen fun _ _ => by simp [finishAlu_eq, DrawsAt]

theorem execDiv_draws (r q t : Reg) (s : State) : Ensures (DrawsAt (s.draws + 1)) (execDiv r q t s) :=
  ensures_andThen fun h _ => ensures_andThen fun _ _ => divideInto_draws r h _ _ s

theorem execJmp_draws (r q : Reg) (w : Word) (s : State) : Ensures (DrawsAt s.draws) (execJmp r q w s) := by
  simp [execJmp, DrawsAt]

theorem execLop_draws (r q : Reg) (w : Word) (s : State) : Ensures (DrawsAt s.draws) (execLop r q w s) := by
  simp [execLop, jumpIf_eq, DrawsAt]

theorem execCal_draws (r q : Reg) (w : Word) (s : State) : Ensures (DrawsAt s.draws) (execCal r q w s) := by
  simp [execCal, DrawsAt]

theorem execRet_draws (r q : Reg) (s : State) : Ensures (DrawsAt s.draws) (execRet r q s) := by
  refine ensures_andThen fun p hp => ?_
  obtain ⟨-, hs⟩ := (pop_eq_next _ p).1 hp
  simp [hs, DrawsAt]

/-! ### Every instruction -/

/-- What every instruction makes of the draw counter, by the shared operation it ends with. -/
theorem exec_drawsAfter (i : Instr) (s : State) : Ensures (DrawsAt (drawsAfter i s)) (exec i s) := by
  cases i with
  | hlt | nop | cmp | tst | flg | flr => exact (ensures_next _ _).2 rfl
  | ldw => exact load_draws (fun _ v => v) _ _ _ s
  | ldl => exact load_draws mergeLow _ _ _ s
  | ldh => exact load_draws mergeHigh _ _ _ s
  | stw => exact execStw_draws _ _ _ s
  | stl | sth => exact storeByte_draws _ _ _ _ s
  | xch => exact execXch_draws _ _ s
  | xeq | xne | xlt | xgt | xle | xge | xat | xbt | xae | xbe
  | xyz | xnz | xyc | xnc | xyo | xno | xys | xns | xyp | xnp => exact copyIf_draws _ _ _ s
  | add | adc | sub | sbb | and | orr | xor | not | neg | mov
  | asl | asr | lsr | rtl | rtr | rlc | rrc | lsl
  | adi | sbi | aci | sib | ani | ori | xri | mvi => exact finishAlu_draws _ _ _ s
  | mul => exact execMul_draws _ _ _ s
  | div => exact execDiv_draws _ _ _ s
  | jmp => exact execJmp_draws _ _ _ s
  | jeq | jne | jlt | jgt | jle | jge | jat | jbt | jae | jbe
  | jyz | jnz | jyc | jnc | jyo | jno | jys | jns | jyp | jnp => exact compareAndJump_draws _ _ _ _ s
  | lop => exact execLop_draws _ _ _ s
  | psw | psl | psh => exact pushAndGo_draws _ s
  | ppw => exact popInto_draws (fun _ v => v) _ s
  | ppl => exact popInto_draws mergeLow _ s
  | pph => exact popInto_draws mergeHigh _ s
  | cal => exact execCal_draws _ _ _ s
  | ret => exact execRet_draws _ _ s

/-- An instruction that leaves FL open compares nothing, so FL is the value drawn (D6). -/
theorem flagsAfter_of_leavesFlagsOpen (i : Instr) (s : State) (hopen : i.leavesFlagsOpen = true) :
    flagsAfter i s = flagsOfBits (Config.freeFlags s.draws) := by
  cases i with
  | add | adc | sub | sbb | and | orr | xor | mul | div | not | neg | mov
  | asl | asr | lsr | rtl | rtr | rlc | rrc | lsl
  | adi | sbi | aci | sib | ani | ori | xri | mvi => rfl
  | _ => cases hopen

/-- Settles O57: it holds, by `flagsAfter` and the two cases of `drawsAfter`. -/
theorem openFlagsAreAFreshDraw : Obligations.OpenFlagsAreAFreshDraw := by
  intro i s t hexec
  have hdraws : t.draws = drawsAfter i s := exec_drawsAfter i s t hexec
  rw [exec_fl hexec, hdraws, drawsAfter]
  exact ⟨fun hopen => ⟨flagsAfter_of_leavesFlagsOpen i s hopen, if_pos hopen⟩, fun hkept => if_neg (by simp [hkept])⟩

end Sys2Proof.Machine

/-! ## O36 to O39: shifts and rotates (`44_shift_rotate.md` R220 to R228; D20, D21)

Each of the seven is an R3 row that ends in `finishAlu`, so `r3Result_of_finishAlu` gives its rule once its value is the
one of the statement. The statements name most values bit by bit: a rotate takes each bit from its place before, counted
around the ring. -/

namespace Sys2Proof.Machine

/-! ### Bits of a shifted or rotated vector -/

/-- A word is the one built from its bits. -/
theorem eq_ofFnLE {x : Word} {f : Fin 16 → Bool} (hbits : ∀ j : Fin 16, x.getLsbD j = f j) :
    x = BitVec.ofFnLE f := by
  apply BitVec.eq_of_getLsbD_eq
  intro j hj
  rw [BitVec.getLsbD_ofFnLE, dif_pos hj]
  exact hbits ⟨j, hj⟩

/-- A rotation to the left by any count, read around the ring (R220). -/
theorem getLsbD_rotateLeft_ring {w : Nat} (x : BitVec w) (n : Nat) {j : Nat} (hj : j < w) :
    (x.rotateLeft n).getLsbD j = x.getLsbD ((j + w - n % w) % w) := by
  have hcount : n % w < w := Nat.mod_lt n (Nat.zero_lt_of_lt hj)
  rw [BitVec.getLsbD_rotateLeft]
  generalize n % w = m at hcount ⊢
  by_cases hwrap : j < m
  · have hplace : (j + w - m) % w = w - m + j := (Nat.mod_eq_of_lt (by omega)).trans (by omega)
    simp [hwrap, hplace]
  · have hplace : j + w - m = j - m + w := by omega
    rw [hplace, Nat.add_mod_right, Nat.mod_eq_of_lt (by omega)]
    simp [hwrap, hj]

/-- A rotation to the right by any count, read around the ring (R220). -/
theorem getLsbD_rotateRight_ring {w : Nat} (x : BitVec w) (n : Nat) {j : Nat} (hj : j < w) :
    (x.rotateRight n).getLsbD j = x.getLsbD ((j + n) % w) := by
  have hcount : n % w < w := Nat.mod_lt n (Nat.zero_lt_of_lt hj)
  rw [BitVec.getLsbD_rotateRight, ← Nat.add_mod_mod]
  generalize n % w = m at hcount ⊢
  by_cases hstay : j < w - m
  · have hplace : (j + m) % w = m + j := (Nat.mod_eq_of_lt (by omega)).trans (by omega)
    simp [hstay, hplace]
  · have hplace : j + m = j - (w - m) + w := by omega
    rw [hplace, Nat.add_mod_right, Nat.mod_eq_of_lt (by omega)]
    simp [hstay, hj]

/-- From 15 places on, a shift to the right that copies the sign leaves only copies of it (R222). -/
theorem sshiftRight_min_15 (v : Word) (n : Nat) : v.sshiftRight (min n 15) = v.sshiftRight n := by
  by_cases hcount : n ≤ 15
  · rw [Nat.min_eq_left hcount]
  · have hlast : ∀ j, 15 + j < 16 → v.getLsbD (15 + j) = v.msb := by
      intro j hj
      rw [BitVec.msb_eq_getLsbD_last, Nat.lt_one_iff.mp (by omega : j < 1)]
    apply BitVec.eq_of_getLsbD_eq
    intro j _
    rw [Nat.min_eq_right (by omega), BitVec.getLsbD_sshiftRight, BitVec.getLsbD_sshiftRight,
      if_neg (by omega : ¬n + j < 16), ite_eq_right_iff.mpr (hlast j)]

/-! ### The values of the model, as shifts of words -/

/-- ASL is the shift of words, which also leaves nothing from 16 places on (R221). -/
theorem shiftLeft_eq (v : Word) (n : Nat) : shiftLeft v n = v <<< n := by
  rw [shiftLeft_eq_ofNat]
  apply BitVec.eq_of_toNat_eq
  rw [BitVec.toNat_ofNat, BitVec.toNat_shiftLeft, Nat.shiftLeft_eq]

/-- LSR by any count is a division; from 16 places on nothing is left (R224). -/
theorem shiftRightLogic_eq_ofNat (v : Word) (n : Nat) : shiftRightLogic v n = BitVec.ofNat 16 (v.toNat / 2 ^ n) := by
  unfold shiftRightLogic
  split
  · rename_i hcount
    rw [Nat.div_eq_of_lt (v.isLt.trans_le (Nat.pow_le_pow_right Nat.two_pos hcount))]
    rfl
  · rfl

/-- LSR is the shift of words that lets zeros in (R224). -/
theorem shiftRightLogic_eq (v : Word) (n : Nat) : shiftRightLogic v n = v >>> n := by
  rw [shiftRightLogic_eq_ofNat, ← Nat.shiftRight_eq_div_pow, ← BitVec.toNat_ushiftRight, BitVec.ofNat_toNat,
    BitVec.setWidth_eq]

/-- ASR is the shift of words that copies the sign in (R222). -/
theorem shiftRightArith_eq (v : Word) (n : Nat) : shiftRightArith v n = v.sshiftRight n := by
  rw [← sshiftRight_min_15, BitVec.sshiftRight_eq, Int.shiftRight_eq_div_pow]
  rfl

/-! ### The values of the model, bit by bit -/

/-- ASR reads bit j + n, or the sign bit where there is none (R222). -/
theorem shiftRightArith_bits (v : Word) (n : Nat) :
    shiftRightArith v n = BitVec.ofFnLE fun j : Fin 16 => v.getLsbD (min (j.val + n) 15) := by
  apply eq_ofFnLE
  intro j
  rw [shiftRightArith_eq, BitVec.getLsbD_sshiftRight, BitVec.msb_eq_getLsbD_last, Nat.add_comm n]
  by_cases hinside : j.val + n < 16
  · rw [if_pos hinside, Nat.min_eq_left (by omega)]
    simp
  · rw [if_neg hinside, Nat.min_eq_right (by omega)]
    simp

/-- RTL moves bit j to bit j + n (R225). -/
theorem getLsbD_rotLeft (v : Word) (n : Nat) {j : Nat} (hj : j < 16) :
    (rotLeft v n).getLsbD j = v.getLsbD ((j + 16 - n % 16) % 16) := by
  rw [rotLeft, BitVec.rotateLeft_mod_eq_rotateLeft, getLsbD_rotateLeft_ring v n hj]

/-- RTR moves bit j to bit j - n (R226). -/
theorem getLsbD_rotRight (v : Word) (n : Nat) {j : Nat} (hj : j < 16) :
    (rotRight v n).getLsbD j = v.getLsbD ((j + n) % 16) := by
  rw [rotRight, BitVec.rotateRight_mod_eq_rotateRight, getLsbD_rotateRight_ring v n hj]

theorem rotLeft_bits (v : Word) (n : Nat) :
    rotLeft v n = BitVec.ofFnLE fun j : Fin 16 => v.getLsbD ((j.val + 16 - n % 16) % 16) :=
  eq_ofFnLE fun j => getLsbD_rotLeft v n j.isLt

theorem rotRight_bits (v : Word) (n : Nat) :
    rotRight v n = BitVec.ofFnLE fun j : Fin 16 => v.getLsbD ((j.val + n) % 16) :=
  eq_ofFnLE fun j => getLsbD_rotRight v n j.isLt

/-- In the ring of RLC the carry is bit 16 and the register the bits below (R227). -/
theorem getLsbD_ringCarryHigh (c : Bool) (v : Word) {k : Nat} (hk : k < 17) :
    (ringCarryHigh c v).getLsbD k = if k = 16 then c else v.getLsbD k := by
  rw [ringCarryHigh, BitVec.getLsbD_append]
  by_cases hcarry : k = 16
  · simp [hcarry]
  · rw [if_pos (by omega), if_neg hcarry]

/-- In the ring of RRC the carry is bit 0 and the register the bits above (R228). -/
theorem getLsbD_ringCarryLow (c : Bool) (v : Word) (k : Nat) :
    (ringCarryLow c v).getLsbD k = if k = 0 then c else v.getLsbD (k - 1) := by
  rw [ringCarryLow, BitVec.getLsbD_append]
  by_cases hcarry : k = 0
  · simp [hcarry]
  · rw [if_neg (by omega), if_neg hcarry]

/-- RLC reads its ring n places to the right of each place of the register (R227). -/
theorem rotLeftCarry_bits (c : Bool) (v : Word) (n : Nat) :
    rotLeftCarry c v n = BitVec.ofFnLE fun j : Fin 16 =>
      if (j.val + 17 - n % 17) % 17 = 16 then c else v.getLsbD ((j.val + 17 - n % 17) % 17) := by
  apply eq_ofFnLE
  intro j
  have hplace : (rotLeftCarry c v n).getLsbD j = ((ringCarryHigh c v).rotateLeft n).getLsbD j.val := by
    simp [rotLeftCarry]
  rw [hplace, getLsbD_rotateLeft_ring _ n (by omega), getLsbD_ringCarryHigh c v (Nat.mod_lt _ (by decide))]

/-- RRC reads its ring n places to the left of each place of the register, where bit j stands at place j + 1 (R228). -/
theorem rotRightCarry_bits (c : Bool) (v : Word) (n : Nat) :
    rotRightCarry c v n = BitVec.ofFnLE fun j : Fin 16 =>
      if (j.val + 1 + n) % 17 = 0 then c else v.getLsbD ((j.val + 1 + n) % 17 - 1) := by
  apply eq_ofFnLE
  intro j
  have hplace : (rotRightCarry c v n).getLsbD j = ((ringCarryLow c v).rotateRight n).getLsbD (j.val + 1) := by
    simp [rotRightCarry, Nat.add_comm]
  rw [hplace, getLsbD_rotateRight_ring _ n (by omega), getLsbD_ringCarryLow]

/-! ### One place at a time -/

/-- An operation whose counts add up, 0 places changing nothing, is by n places itself by one place, n times (R220). -/
theorem eq_iterate_of_add {f : Word → Nat → Word} (hzero : ∀ v, f v 0 = v)
    (hadd : ∀ v m n, f v (m + n) = f (f v m) n) (v : Word) (n : Nat) : f v n = (fun x => f x 1)^[n] v := by
  induction n with
  | zero => exact hzero v
  | succ n ih => rw [hadd, ih, Function.iterate_succ_apply']

theorem rotLeft_zero (v : Word) : rotLeft v 0 = v := by
  simp [rotLeft, BitVec.rotateLeft_def, BitVec.ushiftRight_eq_zero]

theorem rotRight_zero (v : Word) : rotRight v 0 = v := by
  simp [rotRight, BitVec.rotateRight_def]

/-- Around the ring of 16 places the counts add up, to the left (R225). -/
theorem rotLeft_add (v : Word) (m n : Nat) : rotLeft v (m + n) = rotLeft (rotLeft v m) n := by
  apply BitVec.eq_of_getLsbD_eq
  intro j hj
  have hmod : (j + 16 - n % 16) % 16 < 16 := Nat.mod_lt _ (by decide)
  rw [getLsbD_rotLeft v _ hj, getLsbD_rotLeft _ n hj, getLsbD_rotLeft v m hmod]
  congr 1
  omega

/-- The same to the right (R226). -/
theorem rotRight_add (v : Word) (m n : Nat) : rotRight v (m + n) = rotRight (rotRight v m) n := by
  apply BitVec.eq_of_getLsbD_eq
  intro j hj
  have hmod : (j + n) % 16 < 16 := Nat.mod_lt _ (by decide)
  rw [getLsbD_rotRight v _ hj, getLsbD_rotRight _ n hj, getLsbD_rotRight v m hmod]
  congr 1
  omega

/-! ### The statements -/

/-- Settles O36: it holds, by the value of each of the three operations. -/
theorem aslAndRotateResults : Obligations.AslAndRotateResults := by
  unfold Obligations.AslAndRotateResults
  simp only [← shiftLeft_eq_ofNat, ← rotLeft_bits, ← rotRight_bits]
  refine ⟨?asl, ?rtl, ?rtr⟩
  case asl | rtl | rtr => exact r3Result_of_finishAlu (fun _ _ _ => rfl) (fun _ _ _ _ => rfl)

/-- Settles O37: it holds; ASR reads the sign bit where the count leads past the word. -/
theorem rightShiftResults : Obligations.RightShiftResults := by
  unfold Obligations.RightShiftResults
  simp only [← shiftRightArith_bits, ← shiftRightLogic_eq_ofNat]
  refine ⟨?asr, ?lsr⟩
  case asr | lsr => exact r3Result_of_finishAlu (fun _ _ _ => rfl) (fun _ _ _ _ => rfl)

/-- Settles O38: it holds; the carry in the ring is the one of the state before FL is drawn. -/
theorem rotateThroughCarryResults : Obligations.RotateThroughCarryResults := by
  unfold Obligations.RotateThroughCarryResults
  simp only [← rotLeftCarry_bits, ← rotRightCarry_bits]
  refine ⟨?rlc, ?rrc⟩
  case rlc | rrc => exact r3Result_of_finishAlu (fun _ _ _ => rfl) (fun _ _ _ _ => rfl)

/-- Settles O39: it holds. Counts add up, for shifts of words by the library and for rotates around the ring. -/
theorem shiftByCountIsRepeatedShiftByOne : Obligations.ShiftByCountIsRepeatedShiftByOne := by
  intro v n
  simp only [shiftLeft_eq, shiftRightArith_eq, shiftRightLogic_eq]
  refine ⟨?asl, ?asr, ?lsr, ?rtl, ?rtr⟩
  case asl => exact eq_iterate_of_add BitVec.shiftLeft_zero BitVec.shiftLeft_add v n
  case asr => exact eq_iterate_of_add (fun _ => BitVec.sshiftRight_zero) (fun _ _ _ => BitVec.sshiftRight_add) v n
  case lsr => exact eq_iterate_of_add BitVec.ushiftRight_zero BitVec.shiftRight_add v n
  case rtl => exact eq_iterate_of_add rotLeft_zero rotLeft_add v n
  case rtr => exact eq_iterate_of_add rotRight_zero rotRight_add v n

end Sys2Proof.Machine

/-! ## O40 to O42, O46: the flags, and the order they decide (`45_compare_flags.md` R241 to R247; D8 to D12)

CMP, TST, FLG and FLR each set FL and go on, so one lemma gives what all four leave unchanged. What remains is one lemma
per flag, which reads it as a fact about numbers or bits. The same lemmas about the flags of a difference decide the
order of its operands: "Less" is a sign that differs from the overflow, "Below" is the carry. `jumpDecides` turns such
an equivalence into a statement about the jump, by `jumpRule`. -/

namespace Sys2Proof.Machine

/-! ### The flags of any value -/

theorem msb_eq_true_iff_toNat (v : Word) : v.msb = true ↔ 32768 ≤ v.toNat := by
  rw [BitVec.msb_eq_decide, decide_eq_true_iff]

theorem msb_eq_true_iff_toInt (v : Word) : v.msb = true ↔ v.toInt < 0 := by
  rw [BitVec.msb_eq_toInt, decide_eq_true_iff]

/-- The model's count of 1 bits is the number of places that hold one (`00_scope.md` R9). -/
theorem popcount_eq_card (v : Word) :
    popcount v = ((Finset.range 16).filter (fun k => v.getLsbD k = true)).card := by
  rw [← Nat.count_eq_card_filter_range, Nat.count]
  simp [popcount]

/-- P is an even number of 1 bits (R243, D10). -/
theorem parityFn_eq_true_iff (v : Word) : parityFn v = true ↔ Claims.EvenOnes v := by
  rw [parityFn, popcount_eq_card, beq_iff_eq, Claims.EvenOnes]

theorem flagsLogic_z_iff (v : Word) : (flagsLogic v).z = true ↔ v = 0 := beq_iff_eq

theorem flagsLogic_s_iff (v : Word) : (flagsLogic v).s = true ↔ 32768 ≤ v.toNat := msb_eq_true_iff_toNat v

/-! ### The flags of an AND -/

/-- An AND is zero where no place holds a 1 in both words. -/
theorem and_eq_zero_iff (a b : Word) :
    a &&& b = 0 ↔ ∀ k < 16, ¬(a.getLsbD k = true ∧ b.getLsbD k = true) := by
  rw [BitVec.eq_of_getLsbD_eq_iff]
  simp

theorem flagsLogic_and_s_iff (a b : Word) :
    (flagsLogic (a &&& b)).s = true ↔ 32768 ≤ a.toNat ∧ 32768 ≤ b.toNat := by
  rw [← msb_eq_true_iff_toNat, ← msb_eq_true_iff_toNat, ← Bool.and_eq_true, ← BitVec.msb_and]
  rfl

/-! ### The flags of a difference -/

theorem flagsSub_z_iff (a b : Word) : (flagsSub a b).z = true ↔ a = b :=
  beq_iff_eq.trans sub_eq_zero

theorem flagsSub_c_iff (a b : Word) : (flagsSub a b).c = true ↔ a.toNat < b.toNat := decide_eq_true_iff

/-- The model reads O from three sign bits; it is the overflow of the signed subtraction (R242, D8). -/
theorem flagsSub_o_eq (a b : Word) : (flagsSub a b).o = a.ssubOverflow b := by
  rw [BitVec.ssubOverflow_eq, flagsSub, difference]
  cases a.msb <;> cases b.msb <;> simp

theorem flagsSub_o_iff (a b : Word) :
    (flagsSub a b).o = true ↔ ¬(-32768 ≤ a.toInt - b.toInt ∧ a.toInt - b.toInt ≤ 32767) := by
  rw [flagsSub_o_eq, BitVec.ssubOverflow, Bool.or_eq_true, decide_eq_true_iff, decide_eq_true_iff]
  omega

/-- The signed difference of two words, brought into the range of a word (R242). -/
theorem flagsSub_s_iff_bmod (a b : Word) : (flagsSub a b).s = true ↔ (a.toInt - b.toInt).bmod 65536 < 0 := by
  rw [← BitVec.toInt_sub (w := 16)]
  exact msb_eq_true_iff_toInt (a - b)

/-- S is the sign of the difference unless O marks it as wrong, so the two differ where the first operand is the lesser
(R241 "Less Than", R242). -/
theorem flagsSub_s_ne_o_iff (a b : Word) : (flagsSub a b).s ≠ (flagsSub a b).o ↔ a.toInt < b.toInt := by
  rw [ne_eq, Bool.eq_iff_iff, flagsSub_s_iff_bmod, flagsSub_o_iff, Int.bmod]
  have ha := BitVec.le_toInt a
  have ha' := BitVec.toInt_lt (x := a)
  have hb := BitVec.le_toInt b
  have hb' := BitVec.toInt_lt (x := b)
  omega

/-! Z and C clear, and S agreeing with O. -/

theorem flagsSub_z_eq_false_iff (a b : Word) : (flagsSub a b).z = false ↔ a ≠ b :=
  Bool.eq_false_iff.trans (flagsSub_z_iff a b).not

theorem flagsSub_c_eq_false_iff (a b : Word) : (flagsSub a b).c = false ↔ b.toNat ≤ a.toNat :=
  Bool.eq_false_iff.trans ((flagsSub_c_iff a b).not.trans not_lt)

theorem flagsSub_s_eq_o_iff (a b : Word) : (flagsSub a b).s = (flagsSub a b).o ↔ b.toInt ≤ a.toInt := by
  rw [← not_lt, ← flagsSub_s_ne_o_iff, not_not]

/-! S, C and P, read from the difference of the unsigned numbers. -/

/-- S is the top bit of the difference modulo 2^16 (R242). -/
theorem flagsSub_s_iff (a b : Word) :
    (flagsSub a b).s = true ↔ 32768 ≤ (BitVec.ofInt 16 ((a.toNat : Int) - b.toNat)).toNat := by
  rw [ofInt_sub_toNat, ofInt_toNat_word]
  exact msb_eq_true_iff_toNat (a - b)

/-- C is a borrow: the unsigned difference is negative (R242). -/
theorem flagsSub_c_iff_difference_neg (a b : Word) :
    (flagsSub a b).c = true ↔ (a.toNat : Int) - b.toNat < 0 := by
  rw [flagsSub_c_iff]
  omega

theorem flagsSub_p_iff (a b : Word) :
    (flagsSub a b).p = true ↔ Claims.EvenOnes (BitVec.ofInt 16 ((a.toNat : Int) - b.toNat)) := by
  rw [ofInt_sub_toNat, ofInt_toNat_word]
  exact parityFn_eq_true_iff (a - b)

/-! ### The flags that FLG copies -/

theorem toNat_getLsbD (v : Word) (k : Nat) : (v.getLsbD k).toNat = v.toNat / 2 ^ k % 2 := by
  rw [← BitVec.testBit_toNat, Nat.toNat_testBit]

theorem flagsOfWord_eq (v : Word) :
    flagsOfWord v =
      { z := v.getLsbD 0, c := v.getLsbD 1, o := v.getLsbD 2, s := v.getLsbD 3, p := v.getLsbD 4 } := by
  simp [flagsOfWord, flagsOfBits]

/-- The five flags in the order of D11 are the number that bits 4:0 hold (R246). -/
theorem flagsOfWord_number (v : Word) :
    (flagsOfWord v).z.toNat + 2 * (flagsOfWord v).c.toNat + 4 * (flagsOfWord v).o.toNat +
      8 * (flagsOfWord v).s.toNat + 16 * (flagsOfWord v).p.toNat = v.toNat % 32 := by
  simp only [flagsOfWord_eq, toNat_getLsbD]
  omega

/-! ### What the four instructions leave unchanged -/

/-- The next instruction of one word, and all but FL as it was. -/
def OnlyFlags (s t : State) : Prop :=
  SameRegs s t ∧ t.ip = s.ip + 1 ∧ t.sp = s.sp ∧ t.halted = s.halted ∧ SameBytes s t

theorem onlyFlags_setFlags_advance (f : Flags) (s : State) : OnlyFlags s ((s.setFlags f).advance 1) := by
  simp [OnlyFlags, SameRegs, SameBytes]

theorem exec_cmp (r q : Reg) (s : State) :
    exec (.cmp r q) s = .next ((s.setFlags (flagsSub (s.reg r) (s.reg q))).advance 1) := rfl

theorem exec_tst (r q : Reg) (s : State) :
    exec (.tst r q) s = .next ((s.setFlags (flagsLogic (s.reg r &&& s.reg q))).advance 1) := rfl

theorem exec_flg (r : Reg) (s : State) :
    exec (.flg r) s = .next ((s.setFlags (flagsOfWord (s.reg r))).advance 1) := rfl

theorem exec_flr (r : Reg) (s : State) :
    exec (.flr r) s = .next ((s.setFlags (flagsLogic (s.reg r))).advance 1) := rfl

/-! ### The order that a jump decides -/

/-- A conditional jump decides every relation that its condition, asked of the flags of a difference, is equivalent to
(R250: away from both fields 000 these are the flags it tests). -/
theorem jumpDecides (k : Cond) {rel : Word → Word → Prop} (hrel : ∀ a b, k.Holds (flagsSub a b) ↔ rel a b) :
    Claims.JumpDecides k.jump rel := by
  intro r q w s hfields
  obtain ⟨-, u, hexec, hfl, htaken, hnext, -⟩ := jumpRule k r q w s
  have hsub : u.fl = flagsSub (s.reg r) (s.reg q) := hfl.trans (if_neg hfields)
  rw [hsub, hrel] at htaken hnext
  exact ⟨u, hexec, htaken, hnext⟩

/-! ### The statements -/

/-- Settles O40: it holds, by the lemma on each flag of a difference. -/
theorem cmpLeavesTheSubtractionFlags : Obligations.CmpLeavesTheSubtractionFlags := fun r q w s =>
  ⟨decode_wordR2 23 r q w, _, exec_cmp r q s, flagsSub_z_iff _ _, flagsSub_s_iff _ _,
    flagsSub_c_iff_difference_neg _ _, flagsSub_o_iff _ _, flagsSub_p_iff _ _, onlyFlags_setFlags_advance _ s⟩

/-- Settles O41: it holds, by the lemma on each flag of a value; C and O are clear by D9. -/
theorem tstAndFlrLeaveTheValueFlags : Obligations.TstAndFlrLeaveTheValueFlags := by
  intro r q w s
  have hz : (flagsLogic (s.reg r)).z = true ↔ (s.reg r).toNat = 0 :=
    (flagsLogic_z_iff _).trans BitVec.toNat_eq
  refine ⟨decode_wordR2 24 r q w, decode_wordR1 1 r w, ?tst, ?flr⟩
  case tst =>
    exact ⟨_, exec_tst r q s, (flagsLogic_z_iff _).trans (and_eq_zero_iff _ _), flagsLogic_and_s_iff _ _, rfl, rfl,
      parityFn_eq_true_iff _, onlyFlags_setFlags_advance _ s⟩
  case flr =>
    exact ⟨_, exec_flr r s, hz, flagsLogic_s_iff _, rfl, rfl, parityFn_eq_true_iff _,
      onlyFlags_setFlags_advance _ s⟩

/-- Settles O42: it holds, by `flagsOfWord_number`. -/
theorem flgCopiesFiveBits : Obligations.FlgCopiesFiveBits := fun r w s =>
  ⟨decode_wordR1 0 r w, _, exec_flg r s, flagsOfWord_number (s.reg r), onlyFlags_setFlags_advance _ s⟩

/-- Settles O46: it holds, by `jumpDecides`. Z is equality, C the unsigned "less" and S ≠ O the signed one; the other
conditions are their negations and combinations. -/
theorem comparingJumpsDecideTheNamedOrder : Obligations.ComparingJumpsDecideTheNamedOrder := by
  refine ⟨jumpDecides .equal flagsSub_z_iff, jumpDecides .notEqual flagsSub_z_eq_false_iff,
    jumpDecides .lessThan flagsSub_s_ne_o_iff, jumpDecides .greaterThan fun a b => ?greater,
    jumpDecides .lessEqual fun a b => ?lessEqual, jumpDecides .greaterEqual flagsSub_s_eq_o_iff,
    jumpDecides .aboveThan fun a b => ?above, jumpDecides .belowThan flagsSub_c_iff,
    jumpDecides .aboveEqual flagsSub_c_eq_false_iff, jumpDecides .belowEqual fun a b => ?belowEqual⟩
  case greater =>
    rw [Cond.Holds, flagsSub_z_eq_false_iff, flagsSub_s_eq_o_iff, ne_eq, ← BitVec.toInt_inj]
    omega
  case lessEqual =>
    rw [Cond.Holds, flagsSub_z_iff, flagsSub_s_ne_o_iff, ← BitVec.toInt_inj]
    omega
  case above =>
    rw [Cond.Holds, flagsSub_c_eq_false_iff, flagsSub_z_eq_false_iff, ne_eq, ← BitVec.toNat_inj]
    omega
  case belowEqual =>
    rw [Cond.Holds, flagsSub_c_iff, flagsSub_z_iff, ← BitVec.toNat_inj]
    omega

end Sys2Proof.Machine

/-! ## O43 to O45, O47, O56: the jumps and the loop (`46_jump_loop.md` R250 to R255, R257 to R273; D5, D8, D15, D16)

Each conditional jump is `jumpRule` at its own condition. JMP has no condition and LOP writes a register besides, so
each of the two has its end state written out once, and what it leaves of FL, SP, `halted` and memory is read from the
lemmas on its meaning. -/

namespace Sys2Proof.Machine

/-! ### The J-type flag rule -/

/-- FL after an instruction with two J-type register fields is what their comparison leaves, whatever else it does. -/
theorem flagsAfter_of_compared {i : Instr} {r q : Reg} (s : State) (hfields : i.compared = some (r, q)) :
    flagsAfter i s = comparedFlags r q s := by
  cases i with
  | jmp | jeq | jne | jlt | jgt | jle | jge | jat | jbt | jae | jbe
  | jyz | jnz | jyc | jnc | jyo | jno | jys | jns | jyp | jnp | lop | cal | ret =>
    cases hfields
    rfl
  | _ => cases hfields

/-- Against r0 the comparison sets Z exactly where the primary register is zero (D16). -/
theorem comparedFlags_r0_z_iff {r : Reg} (hr : r ≠ .r0) (s : State) :
    (comparedFlags r .r0 s).z = true ↔ s.reg r = 0 := by
  rw [comparedFlags, if_neg fun h => hr h.1, State.reg_r0, flagsSub_z_iff]

/-! ### The jump without a condition -/

theorem exec_jmp (r q : Reg) (w : Word) (s : State) :
    exec (.jmp r q w) s = .next ((jumpCompare r q s).setIp w) := rfl

/-- JMP follows the rule of the jumps for the condition that always holds (R252). -/
theorem jmpRule : Claims.JumpRule .jmp 0 (fun _ => True) := by
  intro r q w s
  have hexec := exec_jmp r q w s
  obtain ⟨hfl, hsp, hhalted⟩ := execJmp_leavesStatus r q w s _ hexec
  have hbytes := (execJmp_keepsMem r q w s _ hexec).sameBytes
  refine ⟨decode_wordJ 0 r q w, _, hexec, hfl, fun _ => rfl, fun hnot => absurd trivial hnot, fun k => ?_, hsp, hhalted,
    hbytes⟩
  rw [State.setIp_reg, jumpCompare_reg]

/-! ### The loop -/

/-- LOP decrements on both paths, and the Z of its comparison alone picks the path (R273). -/
theorem exec_lop (r q : Reg) (w : Word) (s : State) :
    exec (.lop r q w) s = .next (((jumpCompare r q s).setReg r (s.reg r - 1)).setIp
      (if (comparedFlags r q s).z then s.ip + 2 else w)) := by
  change execLop r q w s = _
  rw [execLop, jumpIf_eq, State.setReg_ip, jumpCompare_ip, jumpCompare_fl_eq_comparedFlags]
  cases (comparedFlags r q s).z <;> rfl

theorem ofInt_toNat_sub_one (a : Word) : BitVec.ofInt 16 ((a.toNat : Int) - 1) = a - 1 := by
  have hsub := ofInt_sub_toNat a.toNat 1
  rwa [ofInt_toNat_word] at hsub

/-! ### The statements -/

/-- Settles O44: it holds, by `jumpRule` for each of the nine conditions. -/
theorem jumpsOnOrderConditions : Obligations.JumpsOnOrderConditions :=
  ⟨jumpRule .equal, jumpRule .notEqual, jumpRule .lessThan, jumpRule .lessEqual, jumpRule .greaterEqual,
    jumpRule .aboveThan, jumpRule .belowThan, jumpRule .aboveEqual, jumpRule .belowEqual⟩

/-- Settles O45: it holds, by `jumpRule` for each of the ten conditions. -/
theorem jumpsOnOneFlag : Obligations.JumpsOnOneFlag :=
  ⟨jumpRule .zero, jumpRule .notZero, jumpRule .carry, jumpRule .notCarry, jumpRule .overflow,
    jumpRule .notOverflow, jumpRule .sign, jumpRule .notSign, jumpRule .parity, jumpRule .notParity⟩

/-- Settles O47: it holds, by the end state of `exec_lop`; the clause on the field 000 is `comparedFlags_r0_z_iff`. -/
theorem lopTestsThenDecrements : Obligations.LopTestsThenDecrements := by
  intro r q w s
  have hexec := exec_lop r q w s
  obtain ⟨hfl, hsp, hhalted⟩ := execLop_leavesStatus r q w s _ hexec
  have hbytes := (execLop_keepsMem r q w s _ hexec).sameBytes
  refine ⟨decode_wordJ 21 r q w, _, hexec, hfl, fun k => ?reg, fun hz => ?taken, fun hz => ?next, fun hr hq => ?zero,
    hsp, hhalted, hbytes⟩
  case reg => rw [State.setIp_reg, State.reg_setReg, jumpCompare_reg, ofInt_toNat_sub_one]
  case taken =>
    rw [hfl] at hz
    exact if_neg (Bool.eq_false_iff.1 hz)
  case next =>
    rw [hfl] at hz
    exact if_pos hz
  case zero =>
    subst hq
    rw [hfl]
    exact comparedFlags_r0_z_iff hr s

/-- Settles O56: it holds, since FL after each of the 24 is FL after its comparison. -/
theorem everyJumpFollowsTheFlagRule : Obligations.EveryJumpFollowsTheFlagRule :=
  fun _ _ _ s _ hexec hfields => (exec_fl hexec).trans (flagsAfter_of_compared s hfields)

/-- Settles O43: it holds, by `jmpRule`. -/
theorem jmpGoesToItsTarget : Obligations.JmpGoesToItsTarget := jmpRule

end Sys2Proof.Machine

/-! ## O48 to O52: pushes and pops, call and return (`47_stack_call.md` R280 to R289; D5, D7, D13 to D15)

A push and a pop each leave one named effect, whichever instruction makes them, and so do CAL and RET. What a pop gives
back after a push, and RET after CAL, is read from these effects alone: the cell that SP names is the one just
written. -/

namespace Sys2Proof.Machine

/-! ### The cell that a push writes -/

/-- One write of a whole cell reaches its two bytes and no other, whatever else the instruction changes. -/
theorem onlyCell_of_writeCell {a v : Word} {s t : State} (hmem : t.mem = writeCell s.mem a v) : OnlyCell a v s t := by
  obtain ⟨hcell, hrest⟩ := onlyCell_setCell a v s
  exact ⟨(congrArg (readCell · a) hmem).trans hcell,
    fun k hlow hhigh => (congrArg (readLane · k) hmem).trans (hrest k hlow hhigh)⟩

/-- A byte below a zero byte is the byte's number as a word (D14). -/
theorem joinBytes_zero (b : Byte) : joinBytes 0 b = BitVec.ofNat 16 b.toNat := by
  have hlt := b.isLt
  have hzero : (0 : Byte).toNat = 0 := rfl
  apply BitVec.eq_of_toNat_eq
  rw [toNat_joinBytes, hzero, BitVec.toNat_ofNat]
  omega

/-- The high byte that went through a cell's low byte is the high byte again. -/
theorem mergeHigh_joinBytes_highByte (v : Word) : mergeHigh v (joinBytes 0 (highByte v)) = v := by
  rw [mergeHigh, lowByte_joinBytes, joinBytes_halves]

/-! ### Pushes -/

/-- What a push leaves: `v` in the cell that SP then names, the next instruction, and all else as it was (R280, D7). -/
def PushEffect (v : Word) (s t : State) : Prop :=
  OnlyCell (s.sp - 1) v s t ∧ t.sp = s.sp - 1 ∧ SameRegs s t ∧ t.ip = s.ip + 1 ∧ t.fl = s.fl ∧ t.halted = s.halted

theorem pushAndGo_eq (v : Word) (s : State) :
    pushAndGo v s = .next (((s.setSp (s.sp - 1)).setCell (s.sp - 1) v).advance 1) := by
  rw [pushAndGo, push_eq, andThen_next]

/-- A push completes in every state. -/
theorem pushAndGo_pushEffect (v : Word) (s : State) : ∃ u, pushAndGo v s = .next u ∧ PushEffect v s u := by
  refine ⟨_, pushAndGo_eq v s, onlyCell_of_writeCell rfl, rfl, fun k => ?_, rfl, rfl, rfl⟩
  rw [State.advance_reg, State.setCell_reg, State.setSp_reg]

theorem exec_psw_pushEffect (r : Reg) (s : State) : ∃ u, exec (.psw r) s = .next u ∧ PushEffect (s.reg r) s u :=
  pushAndGo_pushEffect (s.reg r) s

theorem exec_psh_pushEffect (r : Reg) (s : State) :
    ∃ u, exec (.psh r) s = .next u ∧ PushEffect (joinBytes 0 (highByte (s.reg r))) s u :=
  pushAndGo_pushEffect _ s

/-! ### Pops -/

/-- What a pop leaves: `v` in register `r`, SP one cell up, the next instruction, and all else as it was (R280, D7). -/
def PopEffect (r : Reg) (v : Word) (s t : State) : Prop :=
  OnlyReg r v s t ∧ t.sp = s.sp + 1 ∧ t.ip = s.ip + 1 ∧ t.fl = s.fl ∧ t.halted = s.halted ∧ SameBytes s t

/-- A pop goes on with the item at SP. -/
theorem pop_of_cell {s : State} {v : Word} (hcell : s.cell s.sp = some v) : pop s = .next (v, s.setSp (s.sp + 1)) :=
  (pop_eq_next s _).2 ⟨hcell, rfl⟩

/-- A pop completes where the cell at SP is readable, and leaves the merged register. -/
theorem popInto_popEffect (g : Word → Word → Word) (r : Reg) {s : State} {v : Word} (hcell : s.cell s.sp = some v) :
    ∃ u, popInto g r s = .next u ∧ PopEffect r (g (s.reg r) v) s u := by
  rw [popInto, pop_of_cell hcell, andThen_next]
  refine ⟨_, rfl, fun k => ?_, ?_⟩
  · rw [State.advance_reg, State.reg_setReg, State.setSp_reg]
  · simp [SameBytes]

/-- After a push the item is popped as it was pushed, and SP is back where it was. -/
theorem popInto_after_push (g : Word → Word → Word) (q : Reg) {v : Word} {s u : State} (hpush : PushEffect v s u) :
    ∃ t, popInto g q u = .next t ∧ OnlyReg q (g (s.reg q) v) s t ∧ t.sp = s.sp := by
  obtain ⟨⟨hcell, -⟩, hsp, hregs, -⟩ := hpush
  obtain ⟨t, hpop, hreg, hsp', -⟩ := popInto_popEffect g q (hsp ▸ hcell)
  refine ⟨t, hpop, fun k => ?_, ?_⟩
  · rw [hreg k, hregs q, hregs k]
  · rw [hsp', hsp, BitVec.sub_add_cancel]

/-- A register that takes the value it holds is as it was. -/
theorem OnlyReg.sameRegs {r : Reg} {s t : State} (h : OnlyReg r (s.reg r) s t) : SameRegs s t := by
  intro k
  rw [h k]
  split
  · rename_i hk
    rw [hk.1]
  · rfl

/-! ### Call and return -/

/-- What CAL leaves: the return address in the cell that SP then names, the flags of its comparison, IP at the target,
and all else as it was (R287, D5, D13, D15). -/
def CallEffect (r q : Reg) (w : Word) (s t : State) : Prop :=
  OnlyCell (s.sp - 1) (s.ip + 2) s t ∧ t.sp = s.sp - 1 ∧ t.ip = w ∧ t.fl = comparedFlags r q s ∧ SameRegs s t ∧
    t.halted = s.halted

/-- What RET leaves: IP at `v`, SP one cell up, the flags of its comparison, and all else as it was (R288, D13, D15). -/
def ReturnEffect (r q : Reg) (v : Word) (s t : State) : Prop :=
  t.ip = v ∧ t.sp = s.sp + 1 ∧ t.fl = comparedFlags r q s ∧ SameRegs s t ∧ t.halted = s.halted ∧ SameBytes s t

theorem exec_cal (r q : Reg) (w : Word) (s : State) :
    exec (.cal r q w) s =
      .next ((((jumpCompare r q s).setSp (s.sp - 1)).setCell (s.sp - 1) (s.ip + 2)).setIp w) := by
  rw [exec, execCal, push_eq, andThen_next, jumpCompare_sp, State.nextIp_eq]

/-- CAL completes in every state. -/
theorem exec_cal_callEffect (r q : Reg) (w : Word) (s : State) :
    ∃ u, exec (.cal r q w) s = .next u ∧ CallEffect r q w s u := by
  have hexec := exec_cal r q w s
  obtain ⟨hfl, hsp, hhalted⟩ := execCal_leavesStatus r q w s _ hexec
  refine ⟨_, hexec, onlyCell_of_writeCell ?_, hsp, rfl, hfl, fun k => ?_, hhalted⟩
  · rw [State.setIp_mem, State.setCell_mem, State.setSp_mem, jumpCompare_mem]
  · rw [State.setIp_reg, State.setCell_reg, State.setSp_reg, jumpCompare_reg]

theorem exec_ret (r q : Reg) {s : State} {v : Word} (hcell : s.cell s.sp = some v) :
    exec (.ret r q) s = .next (((jumpCompare r q s).setSp (s.sp + 1)).setIp v) := by
  have hcell' : (jumpCompare r q s).cell (jumpCompare r q s).sp = some v := by
    rwa [jumpCompare_cell, jumpCompare_sp]
  rw [exec, execRet, pop_of_cell hcell', andThen_next, jumpCompare_sp]

/-- RET completes where the cell at SP is readable. -/
theorem exec_ret_returnEffect (r q : Reg) {s : State} {v : Word} (hcell : s.cell s.sp = some v) :
    ∃ u, exec (.ret r q) s = .next u ∧ ReturnEffect r q v s u := by
  have hexec := exec_ret r q hcell
  obtain ⟨hfl, hsp, hhalted⟩ := execRet_leavesStatus r q s _ hexec
  refine ⟨_, hexec, rfl, hsp, hfl, fun k => ?_, hhalted, (execRet_keepsMem r q s _ hexec).sameBytes⟩
  rw [State.setIp_reg, State.setSp_reg, jumpCompare_reg]

theorem comparedFlags_r0_r0 (s : State) : comparedFlags .r0 .r0 s = s.fl := rfl

/-! ### The statements -/

/-- Settles O48: it holds, by `pushAndGo_pushEffect`; a byte is pushed below a zero byte. -/
theorem pushesStoreBelowTheStack : Obligations.PushesStoreBelowTheStack := by
  intro r s
  rw [← toNat_lowByte, ← toNat_highByte, ← joinBytes_zero, ← joinBytes_zero]
  exact ⟨exec_psw_pushEffect r s, pushAndGo_pushEffect _ s, exec_psh_pushEffect r s⟩

/-- Settles O49: it holds, by `popInto_popEffect` with the merge of each instruction. -/
theorem popsLoadFromTheStack : Obligations.PopsLoadFromTheStack := by
  intro r v s hcell
  rw [← mergeLow_eq_ofNat, ← mergeHigh_eq_ofNat]
  exact ⟨popInto_popEffect (fun _ v => v) r hcell, popInto_popEffect mergeLow r hcell,
    popInto_popEffect mergeHigh r hcell⟩

/-- Settles O50: it holds, by `popInto_after_push`; the byte that PSH saves merges to the register's own value. -/
theorem popRestoresWhatPushSaved : Obligations.PopRestoresWhatPushSaved := by
  intro r q s
  obtain ⟨u, hpsw, hword⟩ := exec_psw_pushEffect r s
  obtain ⟨t, hppw, hreg, hsp⟩ := popInto_after_push (fun _ v => v) q hword
  obtain ⟨u', hpsh, hbyte⟩ := exec_psh_pushEffect r s
  obtain ⟨t', hpph, hreg', hsp'⟩ := popInto_after_push mergeHigh r hbyte
  rw [mergeHigh_joinBytes_highByte] at hreg'
  exact ⟨⟨u, t, hpsw, hppw, hreg, hsp⟩, u', t', hpsh, hpph, hreg'.sameRegs, hsp'⟩

/-- Settles O51: it holds, by the effects of CAL and RET. -/
theorem calPushesAndRetPopsIp : Obligations.CalPushesAndRetPopsIp := fun r q w _ s =>
  ⟨decode_wordJ 22 r q w, decode_wordJ 23 r q w, exec_cal_callEffect r q w s, exec_ret_returnEffect r q⟩

/-- Settles O52: it holds, since the cell that SP names after the CAL is the one its return address was written to. -/
theorem retReturnsBehindTheCal : Obligations.RetReturnsBehindTheCal := by
  intro r q r' q' w s
  obtain ⟨u, hcal, ⟨hcell, -⟩, hsp, -, hfl, hregs, -⟩ := exec_cal_callEffect r q w s
  obtain ⟨t, hret, hip, hsp', hfl', hregs', -⟩ := exec_ret_returnEffect r' q' (hsp ▸ hcell)
  refine ⟨u, t, hcal, hret, hip, ?sp, fun k => (hregs' k).trans (hregs k), hfl, hfl', ?flags⟩
  case sp => rw [hsp', hsp, BitVec.sub_add_cancel]
  case flags =>
    rintro rfl rfl rfl rfl
    rw [hfl', comparedFlags_r0_r0, hfl, comparedFlags_r0_r0]

end Sys2Proof.Machine

/-! ## O7, O53: where an instruction and a step stop (`60_exceptions.md` R300, R302, R303; D18, D19, D22, D23, D27, D34)

`StopsAs` says of an operation exactly where it is refused, and by which causes it may stop. It passes through a sequence
whose later parts are never refused, so each shared operation has one lemma, and one case split over the instructions,
`exec_stopsAs`, ties `Instr.wellFormed` to the model. A step adds the causes of its fetch. -/

namespace Sys2Proof.Machine

/-- The faults of R302 that occur (D34). -/
def ListedFault (e : Fault) : Prop := e = .divideByZero ∨ e = .unwrittenRead

/-- The refusals of R302 that the check of the operands raises; the others are the decoder's (R303). -/
def OperandRefusal (e : Refusal) : Prop := e = .storeToImmediate ∨ e = .reservedOperandBits ∨ e = .noRegisterBeforeR0

/-- `x` is refused exactly where `ok` is false, for a cause in the operands, and faults only for a listed cause. -/
def StopsAs {α : Type} (ok : Bool) (x : Result α) : Prop :=
  ((∃ e, x = .refused e) ↔ ok = false) ∧ (∀ e, x = .refused e → OperandRefusal e) ∧ ∀ e, x = .fault e → ListedFault e

theorem stopsAs_next {α : Type} (a : α) : StopsAs true (.next a : Result α) :=
  ⟨iff_of_false nofun nofun, nofun, nofun⟩

theorem stopsAs_fault {α : Type} {e : Fault} (he : ListedFault e) : StopsAs true (.fault e : Result α) :=
  ⟨iff_of_false nofun nofun, nofun, fun _ h => by cases h; exact he⟩

theorem stopsAs_refused {α : Type} {e : Refusal} (he : OperandRefusal e) : StopsAs false (.refused e : Result α) :=
  ⟨iff_of_true ⟨e, rfl⟩ rfl, fun _ h => by cases h; exact he, nofun⟩

/-- A sequence is refused where its first part is, if what follows never is. -/
theorem stopsAs_andThen {α β : Type} {ok : Bool} {x : Result α} {f : α → Result β} (hx : StopsAs ok x)
    (hf : ∀ a, StopsAs true (f a)) : StopsAs ok (andThen x f) := by
  obtain ⟨hiff, hrefused, hfault⟩ := hx
  cases x with
  | next a =>
    obtain rfl : ok = true := by simpa using hiff
    exact hf a
  | fault e =>
    obtain rfl : ok = true := by simpa using hiff
    exact stopsAs_fault (hfault e rfl)
  | refused e =>
    obtain rfl : ok = false := by simpa using hiff
    exact stopsAs_refused (hrefused e rfl)

/-! ### The shared operations -/

theorem memRead_stopsAs (k : Access) (a : Word) (s : State) : StopsAs true (memRead k a s) := by
  rw [memRead_eq]
  cases s.cell a with
  | some v => exact stopsAs_next v
  | none => exact stopsAs_fault (.inr rfl)

theorem pop_stopsAs (s : State) : StopsAs true (pop s) :=
  stopsAs_andThen (memRead_stopsAs .read s.sp s) fun _ => stopsAs_next _

theorem registerBefore_stopsAs (r : Reg) : StopsAs r.hasBefore (registerBefore r) := by
  cases r with
  | r0 => exact stopsAs_refused (.inr (.inr rfl))
  | _ => exact stopsAs_next _

/-- A register number is refused exactly where it does not fit (R132, D23). -/
theorem operandRegister_stopsAs (w : Word) (s : State) :
    StopsAs (w.extractLsb' 3 13 == 0) (operandRegister w s) := by
  unfold operandRegister
  split
  · rename_i hzero
    rw [beq_iff_eq.2 hzero]
    exact stopsAs_next _
  · rename_i hbits
    rw [beq_eq_false_iff_ne.2 hbits]
    exact stopsAs_refused (.inr (.inl rfl))

/-- A mode has no address exactly where it is `i` (R134, D22) or its register number does not fit (R132, D23). -/
theorem effectiveAddress_stopsAs (m : Mode) (w : Word) (s : State) :
    StopsAs (m.storable && m.operandFits w) (effectiveAddress m w s) := by
  cases m with
  | i => exact stopsAs_refused (.inl rfl)
  | id | xd | sd | sxd => exact stopsAs_next _
  | in_ | xn | sn | sxn => exact memRead_stopsAs .read _ s
  | xo | xf | so | sxo | sxf => exact stopsAs_andThen (memRead_stopsAs .read _ s) fun _ => stopsAs_next _
  | rd => exact operandRegister_stopsAs w s
  | rn => exact stopsAs_andThen (operandRegister_stopsAs w s) fun a => memRead_stopsAs .read a s

/-- A mode has no value exactly where its register number does not fit (R132, R133). -/
theorem loadValue_stopsAs (m : Mode) (w : Word) (s : State) : StopsAs (m.operandFits w) (loadValue m w s) := by
  have haddr := effectiveAddress_stopsAs m w s
  cases m with
  | i => exact stopsAs_next w
  | _ => exact stopsAs_andThen haddr fun a => memRead_stopsAs .read a s

/-! ### The shared ends of meanings -/

theorem load_stopsAs (g : Word → Word → Word) (m : Mode) (r : Reg) (w : Word) (s : State) :
    StopsAs (m.operandFits w) (load g m r w s) :=
  stopsAs_andThen (loadValue_stopsAs m w s) fun _ => stopsAs_next _

theorem storeByte_stopsAs (g : Word → Word → Word) (m : Mode) (r : Reg) (w : Word) (s : State) :
    StopsAs (m.storable && m.operandFits w) (storeByte g m r w s) :=
  stopsAs_andThen (effectiveAddress_stopsAs m w s) fun a =>
    stopsAs_andThen (memRead_stopsAs .read a s) fun _ => stopsAs_next _

theorem popInto_stopsAs (g : Word → Word → Word) (r : Reg) (s : State) : StopsAs true (popInto g r s) :=
  stopsAs_andThen (pop_stopsAs s) fun _ => stopsAs_next _

theorem divideInto_stopsAs (r h : Reg) (n d : Nat) (s : State) : StopsAs true (divideInto r h n d s) := by
  unfold divideInto
  split
  · exact stopsAs_fault (.inl rfl)
  · split <;> exact stopsAs_next _

/-! ### The meanings that share no end -/

theorem execStw_stopsAs (m : Mode) (r : Reg) (w : Word) (s : State) :
    StopsAs (m.storable && m.operandFits w) (execStw m r w s) :=
  stopsAs_andThen (effectiveAddress_stopsAs m w s) fun _ => stopsAs_next _

theorem execMul_stopsAs (r q t : Reg) (s : State) : StopsAs r.hasBefore (execMul r q t s) :=
  stopsAs_andThen (registerBefore_stopsAs r) fun _ => stopsAs_next _

/-- The pairs of DIV are looked at before its divisor (R199, R303). -/
theorem exec_div_stopsAs (r q t : Reg) (s : State) : StopsAs (r.hasBefore && q.hasBefore) (exec (.div r q t) s) := by
  obtain ⟨hr0, hdiv⟩ | ⟨hr, hq, h, n, hdiv⟩ := exec_div_cases r q t s
  · have hill : (r.hasBefore && q.hasBefore) = false := by simpa [Reg.hasBefore, or_iff_not_imp_left] using hr0
    rw [hdiv, hill]
    exact stopsAs_refused (.inr (.inr rfl))
  · have hwell : (r.hasBefore && q.hasBefore) = true := by simp [Reg.hasBefore, hr, hq]
    rw [hdiv, hwell]
    exact divideInto_stopsAs r h n _ s

theorem execRet_stopsAs (r q : Reg) (s : State) : StopsAs true (execRet r q s) :=
  stopsAs_andThen (pop_stopsAs _) fun _ => stopsAs_next _

/-! ### Every instruction -/

/-- What stops every instruction: the check of its operands (R303), then a read or a division it makes. -/
theorem exec_stopsAs (i : Instr) (s : State) : StopsAs i.wellFormed (exec i s) := by
  cases i with
  | hlt | nop | cmp | tst | flg | flr | xch => exact stopsAs_next _
  | ldw => exact load_stopsAs (fun _ v => v) _ _ _ s
  | ldl => exact load_stopsAs mergeLow _ _ _ s
  | ldh => exact load_stopsAs mergeHigh _ _ _ s
  | stw => exact execStw_stopsAs _ _ _ s
  | stl | sth => exact storeByte_stopsAs _ _ _ _ s
  | xeq | xne | xlt | xgt | xle | xge | xat | xbt | xae | xbe
  | xyz | xnz | xyc | xnc | xyo | xno | xys | xns | xyp | xnp => exact stopsAs_next _
  | add | adc | sub | sbb | and | orr | xor | not | neg | mov
  | asl | asr | lsr | rtl | rtr | rlc | rrc | lsl
  | adi | sbi | aci | sib | ani | ori | xri | mvi => exact stopsAs_next _
  | mul => exact execMul_stopsAs _ _ _ s
  | div => exact exec_div_stopsAs _ _ _ s
  | jmp | jeq | jne | jlt | jgt | jle | jge | jat | jbt | jae | jbe
  | jyz | jnz | jyc | jnc | jyo | jno | jys | jns | jyp | jnp | lop | cal => exact stopsAs_next _
  | psw | psl | psh => exact stopsAs_next _
  | ppw => exact popInto_stopsAs (fun _ v => v) _ s
  | ppl => exact popInto_stopsAs mergeLow _ s
  | pph => exact popInto_stopsAs mergeHigh _ s
  | ret => exact execRet_stopsAs _ _ s

/-! ### The step -/

/-- A step stays where it is, the machine being halted, or is the fetch and then the instruction fetched. -/
theorem step_eq_cases (s : State) : step s = .next s ∨ step s = andThen (fetch s) fun i => exec i s := by
  cases hhalted : s.halted with
  | true => exact .inl (step_halted s hhalted)
  | false => exact .inr (step_running s hhalted)

/-! ### The statements -/

/-- Settles O53: it holds, by `exec_stopsAs`. -/
theorem refusedExactlyIfIllFormed : Obligations.RefusedExactlyIfIllFormed := by
  intro i s
  obtain ⟨hiff, -, hfault⟩ := exec_stopsAs i s
  exact ⟨hiff, hfault⟩

/-- Settles O7: it holds. The fetch faults on an unwritten cell and is refused as the decoder rejects; what remains are
the causes of the instruction fetched. -/
theorem stepStopsOnlyForListedCauses : Obligations.StepStopsOnlyForListedCauses := by
  intro s
  obtain hstep | hstep := step_eq_cases s
  · rw [hstep]
    exact ⟨nofun, nofun⟩
  simp only [hstep, andThen_eq_fault, andThen_eq_refused]
  refine ⟨fun e hfault => ?fault, fun e hrefused => ?refused⟩
  case fault =>
    obtain hfetch | ⟨i, -, hexec⟩ := hfault
    · exact .inr (fetch_eq_fault s e hfetch)
    · obtain ⟨-, -, hlisted⟩ := exec_stopsAs i s
      exact hlisted e hexec
  case refused =>
    obtain hfetch | ⟨i, -, hexec⟩ := hrefused
    · exact (fetch_eq_refused s e hfetch).imp_right .inl
    · obtain ⟨-, hoperands, -⟩ := exec_stopsAs i s
      exact .inr (.inr (hoperands e hexec))

end Sys2Proof.Machine

/-! ## O20: reads of a cell without a value (`70_reset_and_hazards.md` R332 (a), `60_exceptions.md` R302; D35)

A load and a byte store read the cell at their address, so a fault of that read is a fault of all five; a fault of the
address itself, where a mode reads a pointer, is a fault of STW too. -/

namespace Sys2Proof.Machine

theorem memRead_of_unwritten (k : Access) {a : Word} {s : State} (hcell : s.cell a = none) :
    memRead k a s = .fault .unwrittenRead := (memRead_eq_fault k a s _).2 ⟨hcell, rfl⟩

theorem pop_of_unwritten {s : State} (hcell : s.cell s.sp = none) : pop s = .fault .unwrittenRead :=
  (pop_eq_fault s _).2 ⟨hcell, rfl⟩

/-- The value of a mode with an address is the cell there (R133). -/
theorem loadValue_of_ne_i {m : Mode} (hm : m ≠ .i) (w : Word) (s : State) :
    loadValue m w s = andThen (effectiveAddress m w s) fun a => memRead .read a s := if_neg hm

/-- Where the address or the cell there cannot be read, a byte store has nothing to merge into (R140, R142). -/
theorem storeByte_fault (g : Word → Word → Word) {m : Mode} (r : Reg) {w : Word} {s : State} {e : Fault}
    (hread : (andThen (effectiveAddress m w s) fun a => memRead .read a s) = .fault e) :
    storeByte g m r w s = .fault e := by
  rw [storeByte]
  obtain haddr | ⟨a, haddr, hcell⟩ := (andThen_eq_fault _ _ _).1 hread
  · rw [haddr, andThen_fault]
  · rw [haddr, andThen_next, hcell, andThen_fault]

theorem load_fault (g : Word → Word → Word) {m : Mode} (r : Reg) {w : Word} {s : State} {e : Fault}
    (hvalue : loadValue m w s = .fault e) : load g m r w s = .fault e := by
  rw [load, hvalue, andThen_fault]

/-- The five accesses that read a datum fault as that read does. -/
theorem datumReadFaults_of_read {m : Mode} (hm : m ≠ .i) (r : Reg) {w : Word} {s : State}
    (hread : (andThen (effectiveAddress m w s) fun a => memRead .read a s) = .fault .unwrittenRead) :
    Claims.DatumReadFaults m r w s := by
  have hvalue : loadValue m w s = .fault .unwrittenRead := (loadValue_of_ne_i hm w s).trans hread
  exact ⟨load_fault (fun _ v => v) r hvalue, load_fault mergeLow r hvalue, load_fault mergeHigh r hvalue,
    storeByte_fault mergeLow r hread, storeByte_fault mergeHigh r hread⟩

/-- Mode `i` has no address (R134). -/
theorem ne_i_of_effectiveAddress {m : Mode} {w : Word} {s : State}
    (haddr : ∀ e, effectiveAddress m w s ≠ .refused e) : m ≠ .i := by
  rintro rfl
  exact haddr .storeToImmediate rfl

theorem datumReadFaults_of_unwritten {m : Mode} (r : Reg) {w a : Word} {s : State}
    (haddr : effectiveAddress m w s = .next a) (hcell : s.cell a = none) : Claims.DatumReadFaults m r w s := by
  have hm : m ≠ .i := ne_i_of_effectiveAddress fun e => by rw [haddr]; exact nofun
  refine datumReadFaults_of_read hm r ?_
  rw [haddr, andThen_next, memRead_of_unwritten .read hcell]

/-- Where a pointer cannot be read, no access of the mode has an address. -/
theorem accessFaults_of_effectiveAddress {m : Mode} (r : Reg) {w : Word} {s : State}
    (haddr : effectiveAddress m w s = .fault .unwrittenRead) : Claims.AccessFaults m r w s := by
  have hm : m ≠ .i := ne_i_of_effectiveAddress fun e => by rw [haddr]; exact nofun
  have hstw : execStw m r w s = .fault .unwrittenRead := by rw [execStw, haddr, andThen_fault]
  refine ⟨datumReadFaults_of_read hm r ?_, hstw⟩
  rw [haddr, andThen_fault]

/-- A mode that computes its address from a pointer faults where the pointer's cell holds no value. -/
theorem andThen_pointer_of_unwritten {α : Type} {a : Word} {s : State} (f : Word → Result α) (hcell : s.cell a = none) :
    andThen (pointer a s) f = .fault .unwrittenRead := by
  rw [pointer, memRead_of_unwritten .read hcell, andThen_fault]

theorem popInto_of_unwritten (g : Word → Word → Word) (r : Reg) {s : State} (hcell : s.cell s.sp = none) :
    popInto g r s = .fault .unwrittenRead := by
  rw [popInto, pop_of_unwritten hcell, andThen_fault]

/-- The comparison of RET leaves SP and the cell there as they are. -/
theorem execRet_of_unwritten (r q : Reg) {s : State} (hcell : s.cell s.sp = none) :
    execRet r q s = .fault .unwrittenRead := by
  have hcell' : (jumpCompare r q s).cell (jumpCompare r q s).sp = none := by
    rwa [jumpCompare_cell, jumpCompare_sp]
  rw [execRet, pop_of_unwritten hcell', andThen_fault]

theorem step_of_fetch_fault {s : State} {e : Fault} (hrun : s.halted = false) (hfetch : fetch s = .fault e) :
    step s = .fault e := by
  rw [step_running s hrun, hfetch, andThen_fault]

theorem fetch_of_unwritten_first {s : State} (hcell : s.cell s.ip = none) : fetch s = .fault .unwrittenRead := by
  rw [fetch, memRead_of_unwritten .fetch hcell, andThen_fault]

/-- The second word of a two-word type is read before the opcode is looked at (R104; log entry 23). -/
theorem fetch_of_unwritten_second {s : State} {w0 : Word} (hfirst : s.cell s.ip = some w0)
    (hlen : lengthOf w0 = some 2) (hsecond : s.cell (s.ip + 1) = none) : fetch s = .fault .unwrittenRead := by
  rw [fetch_of_cell hfirst, fetchRest]
  simp only [hlen, memRead_of_unwritten .fetch hsecond, andThen_fault]

/-- Settles O20: it holds. A sum of words is the word of the sum of their numbers; then each clause on a pointer is the
row of its mode in R131, and each other clause is the lemma on its read. -/
theorem readingAnUnwrittenCellFaults : Obligations.ReadingAnUnwrittenCellFaults := by
  intro s w r q
  simp only [BitVec.ofNat_add, BitVec.ofNat_toNat, BitVec.setWidth_eq]
  refine ⟨fun m a haddr hcell => datumReadFaults_of_unwritten r haddr hcell, fun hcell => ⟨?in_, ?xf⟩, fun hcell => ?rn,
    fun hcell => ?xn, fun hcell => ?xo, fun hcell => ⟨?sn, ?sxf⟩, fun hcell => ?so, fun hcell => ?sxn, fun hcell => ?sxo,
    fun hcell => ⟨?ppw, ?ppl, ?pph, ?ret⟩, fun hrun hcell => ?first, fun w0 hrun hfirst hlen hsecond => ?second⟩
  case in_ | xn | sn | sxn => exact accessFaults_of_effectiveAddress r (memRead_of_unwritten .read hcell)
  case xf | xo | sxf | so | sxo => exact accessFaults_of_effectiveAddress r (andThen_pointer_of_unwritten _ hcell)
  case rn =>
    refine accessFaults_of_effectiveAddress r ?_
    rw [effectiveAddress, operandRegister_code, andThen_next, pointer, memRead_of_unwritten .read hcell]
  case ppw => exact popInto_of_unwritten (fun _ v => v) r hcell
  case ppl => exact popInto_of_unwritten mergeLow r hcell
  case pph => exact popInto_of_unwritten mergeHigh r hcell
  case ret => exact execRet_of_unwritten r q hcell
  case first => exact step_of_fetch_fault hrun (fetch_of_unwritten_first hcell)
  case second => exact step_of_fetch_fault hrun (fetch_of_unwritten_second hfirst hlen hsecond)

end Sys2Proof.Machine

/-! ## O9, O10: the machine after reset (`70_reset_and_hazards.md` R330, R331; D26, D30) -/

namespace Sys2Proof.Machine

/-- Settles O9: it holds, by `wf_reset`; reset lists no memory (log entry 11). -/
theorem resetMemoryIsCanonical : Obligations.ResetMemoryIsCanonical := wf_reset

/-- Settles O10: it holds, by the lemmas on `State.resetAt`; the values of D30 are those of `Config`. -/
theorem resetLeavesTheSpecsValues : Obligations.ResetLeavesTheSpecsValues :=
  ⟨rfl, fun i p => ⟨State.resetAt_ip i p, State.resetAt_sp i p, State.reg_r0 _, State.resetAt_halted i p,
    State.resetAt_cell i p⟩⟩

end Sys2Proof.Machine
